-- ==== Sys2Proof/Word.lean ====
section
/-! DEFINITION. The words of the block: 8, 16 and 32 bit unsigned bit vectors (00_scope.md R7). -/

namespace Sys2Proof

/-- An 8-bit value. -/
abbrev Byte := BitVec 8

/-- A 16-bit value. -/
abbrev Halfword := BitVec 16

/-- A 32-bit value: every register, the bus value and every result (00_scope.md R6). -/
abbrev Word := BitVec 32

end Sys2Proof
end

