-- ==== Sys2Proof/Config.lean ====
section
/-! DEFINITION. What is fixed for one block: the window and the reset values.
No free value is needed: every open point of the source is settled by a rule of spec/ (INVENTORY.md, 'What the manual leaves open'). -/

namespace Sys2Proof.Config

/-- `CRC_BASE`'s default (R6, R29, D1). The base is an argument of `requestOfAccess`; no rule depends on its value. -/
def crcBaseDefault : Word := 0x40023000#32

/-- The window's size in bytes (R6, R29). -/
def windowBytes : Nat := 0x400

/-- `INIT` after a power-on or system reset (R25, R130). UNVERIFIED by the source, log entry 6. -/
def initReset : Word := 0xFFFFFFFF#32

/-- `POL` after a power-on or system reset (R25, R130). UNVERIFIED by the source, log entry 6. -/
def polReset : Word := 0x04C11DB7#32

/-- `crc` after a power-on or system reset (R25, R130). UNVERIFIED by the source, log entry 6. -/
def crcReset : Word := 0xFFFFFFFF#32

/-- `clocked` at the start of a run. DESIGN CHOICE, log entry 5: the spec leaves the input to the caller (R22, R133). -/
def clockedAtStart : Bool := true

end Sys2Proof.Config
end

