-- ==== Sys2Proof/Syntax.lean ====
section
/-! DEFINITION. The transactions of the block (30_encoding.md), how a request reaches it, and the spec's data model of a
calculation (41_polynomial_config.md). Types only. -/

namespace Sys2Proof

/-- The ten bus transactions of spec/opcode_table.json (R56), each write with the operand of its own width (R55). -/
inductive Instr where
  /-- `WR8_DR` (R101): feed one byte. -/
  | wr8Dr (x : Byte)
  /-- `WR16_DR` (R102): feed one halfword. -/
  | wr16Dr (x : Halfword)
  /-- `WR32_DR` (R103): feed one word. -/
  | wr32Dr (x : Word)
  /-- `RD32_DR` (R104): read the result register. -/
  | rd32Dr
  /-- `WR32_CR` (R105): write the control register. -/
  | wr32Cr (v : Word)
  /-- `RD32_CR` (R106): read the control register. -/
  | rd32Cr
  /-- `WR32_INIT` (R107): write the initial-value register. -/
  | wr32Init (v : Word)
  /-- `RD32_INIT` (R108): read the initial-value register. -/
  | rd32Init
  /-- `WR32_POL` (R109): write the polynomial-coefficient register. -/
  | wr32Pol (v : Word)
  /-- `RD32_POL` (R110): read the polynomial-coefficient register. -/
  | rd32Pol
deriving DecidableEq, Repr

/-- The 13-bit code of a transaction, format `BUS13` (R45). -/
abbrev Descriptor := BitVec 13

/-- Access widths with a meaning (R46). -/
inductive AccessSize where
  | byte
  | halfword
  | word
deriving DecidableEq, Repr

/-- The mapped registers of the window (R47). -/
inductive Reg where
  | dr
  | cr
  | init
  | pol
deriving DecidableEq, Repr

/-- What the bus master puts to the block: a transaction as descriptor and 32-bit bus value (R45), or an instruction
fetch from the window (R41). -/
inductive BusRequest where
  | data (d : Descriptor) (wdata : Word)
  | fetch (off : BitVec 10)
deriving DecidableEq, Repr

/-- Why a request is no transaction (R41, R57). The names and which one is reported when two hold are the model's
(DESIGN CHOICE, log entry 17): the block itself tells only that it faults (R115). -/
inductive Reject where
  /-- `SZ` = 11 (R46). -/
  | reservedSize
  /-- An offset other than 0x000, 0x008, 0x010, 0x014 (R33). -/
  | unmappedOffset
  /-- A width the register is not accessed at (R34). -/
  | widthNotMapped
  /-- An instruction fetch from the window (R41). -/
  | instructionFetch
deriving DecidableEq, Repr

/-- One access of the host processor (R10): its kind, address, size and, for a write, its data. -/
inductive AccessKind where
  | read
  | write
  | fetch
deriving DecidableEq, Repr

structure HostAccess where
  kind : AccessKind
  addr : Word
  size : AccessSize
  data : Word
deriving DecidableEq, Repr

/-- The polynomial width classes (R76). -/
inductive WidthClass where
  | w7
  | w8
  | w16
  | w32
deriving DecidableEq, Repr

/-- The input-reflection modes (R68). -/
inductive InputReflection where
  | none
  | byByte
  | byHalfword
  | byWord
deriving DecidableEq, Repr

/-- A generator polynomial: a width class with a coefficient sized to it, normal form, leading term left out (R76, R77). -/
inductive CrcPolynomial where
  | poly7 (c : BitVec 7)
  | poly8 (c : BitVec 8)
  | poly16 (c : BitVec 16)
  | poly32 (c : BitVec 32)
deriving DecidableEq, Repr

/-- `CrcConfig` (R81). -/
structure CrcConfig where
  inputReflection : InputReflection
  outputReflect : Bool
  initialValue : Word
  polynomial : CrcPolynomial
deriving DecidableEq, Repr

/-- A Step: one data-port write's width and value (R14, R82). -/
inductive DataStep where
  | data8 (x : Byte)
  | data16 (x : Halfword)
  | data32 (x : Word)
deriving DecidableEq, Repr

/-- A line of the spec's transaction syntax (R59): `wr<k> <reg>, <imm>` and `rd<k> <reg>`, well formed or not. -/
inductive AsmLine where
  | wr (size : AccessSize) (reg : Reg) (imm : Nat)
  | rd (size : AccessSize) (reg : Reg)
deriving DecidableEq, Repr

/-- The pseudo-operations (R60): `crc.begin`, `crc.feed`, `crc.result`, `crc.run`. -/
inductive PseudoOp where
  | crcBegin (init pol cr : Word)
  | crcFeed (x : DataStep)
  | crcResult
  | crcRun (config : CrcConfig) (steps : List DataStep)
deriving DecidableEq, Repr

end Sys2Proof
end

