-- ==== Sys2Proof/Machine/State.lean ====
section
/-! DEFINITION. The state of the block, of the two queues that drive it, and of what the bus master has seen; the reasons
a step can stop; the state after reset. -/

namespace Sys2Proof.Machine

/-- What `CR` stores (R20): three fields. `RESET` and the reserved bits hold no state (R49, R54). -/
structure ControlReg where
  /-- `CR.POLYSIZE`, the width selector's code (R50, R51). -/
  polySize : BitVec 2
  /-- `CR.REV_IN`, the input-reflection mode's code (R52). -/
  revIn : BitVec 2
  /-- `CR.REV_OUT`, the output-reflection enable (R53). -/
  revOut : BitVec 1
deriving DecidableEq, Repr

/-- A transaction that went wrong, as the block reports it (R115, R117, R119). -/
inductive Report where
  /-- `BusFault`: the 13-bit descriptor and, for a write, the 32-bit bus value (R115). -/
  | busFault (descriptor : BitVec 13) (wdata : Option Word)
  /-- An instruction fetch from the window, with its offset (R41; the record's form is the model's, log entry 9). -/
  | fetchFault (off : BitVec 10)
  /-- `refuse WidthChangeWithoutReset` (R117). -/
  | widthChangeWithoutReset
deriving DecidableEq, Repr

/-- What the platform can do to the block: switch its clock (R22, R128) or reset it (R130). -/
inductive PlatformInput where
  | clock (on : Bool)
  | systemReset
deriving DecidableEq, Repr

/-- A platform input still to come, after `after` more bus requests have been answered (log entry 7). -/
structure PlatformEvent where
  after : Nat
  what : PlatformInput
deriving DecidableEq, Repr

/-- The state. Registers, the platform input and the marks are the spec's (10_state.md); `reads` and `reports` are what
the bus master sees (R13, R59, R115); `pending` and `platform` are the inputs still to come (R12, R22). -/
structure State where
  /-- `CR` (R20). -/
  cr : ControlReg
  /-- `INIT` (R21). -/
  init : Word
  /-- `POL` (R23). -/
  pol : Word
  /-- The accumulator (R19). -/
  crc : Word
  /-- The platform input `clocked` (R22). -/
  clocked : Bool
  /-- The fault mark (R24). -/
  faulted : Bool
  /-- The refusal mark (R24). -/
  refused : Bool
  /-- The values returned by reads, oldest first (R13, R59). -/
  reads : List Word
  /-- The faults and refusals reported, oldest first (R115, R117). -/
  reports : List Report
  /-- The bus master's requests still to be issued, in order (R12, R38). -/
  pending : List BusRequest
  /-- The platform's inputs still to come, in order (R22, R130). -/
  platform : List PlatformEvent
deriving DecidableEq, Repr

/-- Why the machine stops. -/
inductive Fault where
  /-- The bus master is stuck at its request: the block is not clocked, and no platform input is left that could clock it
  (R118, "every transaction has no step"). Raised by `whenClocked`, for every request. Safe: nothing follows (log entry 4). -/
  | stuckNotClocked
deriving DecidableEq, Repr

/-- Why the model gives an instruction no meaning. -/
inductive Refusal where
  /-- An instruction without a meaning yet, by its table mnemonic. Raised by no arm: every instruction has its meaning. Safe. -/
  | notModelled (mnemonic : String)
deriving DecidableEq, Repr

/-- `CR` after reset: W = 32, no input reflection, no output reflection (R25, R130). -/
def ControlReg.reset : ControlReg := { polySize := 0b00#2, revIn := 0b00#2, revOut := 0b0#1 }

/-- The machine right after reset (R25, R130), clocked by its caller (R133, log entry 5), nothing issued, nothing seen. -/
def State.reset : State where
  cr := ControlReg.reset
  init := Config.initReset
  pol := Config.polReset
  crc := Config.crcReset
  clocked := Config.clockedAtStart
  faulted := false
  refused := false
  reads := []
  reports := []
  pending := []
  platform := []

end Sys2Proof.Machine
end

