-- ==== Sys2Proof/Machine/Flags.lean ====
section
/-! DEFINITION. The block has no status flags and no condition codes (R17): no transaction computes one. What stands here
are the two marks beside the registers (R24) and the reports that set them. -/

namespace Sys2Proof.Machine

/-- Whether a report is a fault, which sets `faulted` (R115, R41). -/
def Report.isFault : Report → Bool
  | .busFault _ _ => true
  | .fetchFault _ => true
  | .widthChangeWithoutReset => false

/-- Whether a report is a refusal, which sets `refused` (R117). -/
def Report.isRefusal : Report → Bool
  | .busFault _ _ => false
  | .fetchFault _ => false
  | .widthChangeWithoutReset => true

/-- Record a report and set its mark; a mark is never cleared (R11, R24). -/
def State.report (r : Report) (s : State) : State :=
  { s with
    faulted := s.faulted || r.isFault
    refused := s.refused || r.isRefusal
    reports := s.reports ++ [r] }

end Sys2Proof.Machine
end

