-- ==== Sys2Proof/WellFormed.lean ====
section
/-! DEFINITION. Which terms of the syntax are well formed. -/

namespace Sys2Proof

/-- Every term of `Instr` is a transaction of the table: each operand's type has the width R55 gives it, and every value
of that width is legal (R58, R79, R85). So nothing is left to check (log entry 18). -/
def Instr.wellFormed : Instr → Bool
  | .wr8Dr _ => true
  | .wr16Dr _ => true
  | .wr32Dr _ => true
  | .rd32Dr => true
  | .wr32Cr _ => true
  | .rd32Cr => true
  | .wr32Init _ => true
  | .rd32Init => true
  | .wr32Pol _ => true
  | .rd32Pol => true

/-- The bits of an access width (R46). -/
def AccessSize.bits : AccessSize → Nat
  | .byte => 8
  | .halfword => 16
  | .word => 32

/-- The write widths of a register (R34). -/
def Reg.writable : Reg → AccessSize → Bool
  | .dr, _ => true
  | .cr, .word => true
  | .init, .word => true
  | .pol, .word => true
  | .cr, .byte | .cr, .halfword => false
  | .init, .byte | .init, .halfword => false
  | .pol, .byte | .pol, .halfword => false

/-- The read width of every register is 32 (R34). -/
def Reg.readable : Reg → AccessSize → Bool
  | _, .word => true
  | _, .byte | _, .halfword => false

/-- A line is well formed if it is one of the ten forms of R59, its immediate a number of at most k bits. -/
def AsmLine.wellFormed : AsmLine → Bool
  | .wr size reg imm => reg.writable size && decide (imm < 2 ^ size.bits)
  | .rd size reg => reg.readable size

end Sys2Proof
end

