-- ==== Sys2Proof/Decode.lean ====
section
/-! DEFINITION. Decoding a bus request (R56, R57), total, rejecting by name, and the encoder beside it, both written from
the descriptor format (R45, R46) and the register map (R47). -/

namespace Sys2Proof

/-! ### Fields of a descriptor (R45) -/

/-- `WR`, bit 12: 1 = write. -/
def descWrite (d : Descriptor) : Bool := d.getLsbD 12

/-- `SZ`, bits 11:10. -/
def descSize (d : Descriptor) : BitVec 2 := d.extractLsb' 10 2

/-- `OFF`, bits 9:0. -/
def descOffset (d : Descriptor) : BitVec 10 := d.extractLsb' 0 10

/-- The `SZ` codes (R46); 11 is reserved. -/
def sizeOfCode (sz : BitVec 2) : Option AccessSize :=
  if sz = 0b00#2 then some .byte
  else if sz = 0b01#2 then some .halfword
  else if sz = 0b10#2 then some .word
  else none

/-- The code of an access width (R46). -/
def codeOfSize : AccessSize → BitVec 2
  | .byte => 0b00#2
  | .halfword => 0b01#2
  | .word => 0b10#2

/-- The register at an offset (R47); every other offset is unmapped (R30, R33). -/
def regAtOffset (off : BitVec 10) : Option Reg :=
  if off = 0x000#10 then some .dr
  else if off = 0x008#10 then some .cr
  else if off = 0x010#10 then some .init
  else if off = 0x014#10 then some .pol
  else none

/-- The offset of a register (R47). -/
def offsetOfReg : Reg → BitVec 10
  | .dr => 0x000#10
  | .cr => 0x008#10
  | .init => 0x010#10
  | .pol => 0x014#10

/-- The k-bit operand of a bus value, `wdata[k-1:0]`; the bits above are no part of it (R55). -/
def busOperand (k : Nat) (wdata : Word) : BitVec k := wdata.setWidth k

/-- The transaction of a direction, width and register, where R34 gives one. -/
def transactionAt (write : Bool) (size : AccessSize) (reg : Reg) (wdata : Word) : Except Reject Instr :=
  match write, size, reg with
  | true, .byte, .dr => .ok (.wr8Dr (busOperand 8 wdata))
  | true, .halfword, .dr => .ok (.wr16Dr (busOperand 16 wdata))
  | true, .word, .dr => .ok (.wr32Dr (busOperand 32 wdata))
  | false, .word, .dr => .ok .rd32Dr
  | true, .word, .cr => .ok (.wr32Cr (busOperand 32 wdata))
  | false, .word, .cr => .ok .rd32Cr
  | true, .word, .init => .ok (.wr32Init (busOperand 32 wdata))
  | false, .word, .init => .ok .rd32Init
  | true, .word, .pol => .ok (.wr32Pol (busOperand 32 wdata))
  | false, .word, .pol => .ok .rd32Pol
  | false, .byte, .dr | false, .halfword, .dr => .error .widthNotMapped
  | _, .byte, .cr | _, .halfword, .cr => .error .widthNotMapped
  | _, .byte, .init | _, .halfword, .init => .error .widthNotMapped
  | _, .byte, .pol | _, .halfword, .pol => .error .widthNotMapped

/-- Decode a descriptor and its bus value (R56, R57). -/
def decode (d : Descriptor) (wdata : Word) : Except Reject Instr :=
  match sizeOfCode (descSize d) with
  | none => .error .reservedSize
  | some size =>
    match regAtOffset (descOffset d) with
    | none => .error .unmappedOffset
    | some reg => transactionAt (descWrite d) size reg wdata

/-- Decode whatever the master puts to the block: a fetch is no transaction (R41). -/
def decodeRequest : BusRequest → Except Reject Instr
  | .data d wdata => decode d wdata
  | .fetch _ => .error .instructionFetch

/-! ### The encoder -/

/-- A descriptor from its fields, `WR ++ SZ ++ OFF` (R45). -/
def mkDescriptor (write : Bool) (size : AccessSize) (reg : Reg) : Descriptor :=
  (BitVec.ofBool write ++ codeOfSize size ++ offsetOfReg reg).setWidth 13

/-- The request of a transaction: its row's descriptor (R56), the operand zero-extended to the 32-bit bus value (R55).
A read carries the bus value 0. -/
def encode : Instr → BusRequest
  | .wr8Dr x => .data (mkDescriptor true .byte .dr) (x.setWidth 32)
  | .wr16Dr x => .data (mkDescriptor true .halfword .dr) (x.setWidth 32)
  | .wr32Dr x => .data (mkDescriptor true .word .dr) x
  | .rd32Dr => .data (mkDescriptor false .word .dr) 0#32
  | .wr32Cr v => .data (mkDescriptor true .word .cr) v
  | .rd32Cr => .data (mkDescriptor false .word .cr) 0#32
  | .wr32Init v => .data (mkDescriptor true .word .init) v
  | .rd32Init => .data (mkDescriptor false .word .init) 0#32
  | .wr32Pol v => .data (mkDescriptor true .word .pol) v
  | .rd32Pol => .data (mkDescriptor false .word .pol) 0#32

/-- A request in canonical form: a write carries nothing above its width, a read the bus value 0, so that a transaction
has one canonical request. -/
def BusRequest.canonical : BusRequest → Bool
  | .data d wdata =>
    match descWrite d, sizeOfCode (descSize d) with
    | true, some size => decide (wdata.toNat < 2 ^ size.bits)
    | true, none => true
    | false, _ => decide (wdata = 0#32)
  | .fetch _ => true

/-- The request a word of the opcode table stands for: the low 13 bits of its `nbits` bits are the descriptor (R45), the
bus value, which the table gives no bits, is 0 (log entry 16). -/
def tableRequest (nbits w : Nat) : BusRequest := .data (BitVec.ofNat 13 (w % 2 ^ nbits)) 0#32

/-- What the decoder reads from a word of the opcode table. A value that does not fit 13 bits is no descriptor. -/
def decodeTableWord (nbits w : Nat) : Option Instr :=
  if w % 2 ^ nbits < 2 ^ 13 then (decodeRequest (tableRequest nbits w)).toOption else none

end Sys2Proof
end

