-- ==== Sys2Proof/Machine/Reflect.lean ====
section
/-! DEFINITION. Bit-reflection logic (40_reflection.md). -/

namespace Sys2Proof.Machine

/-- `reflectByte` (R63). -/
def reflectByte (x : Byte) : Byte := x.reverse

/-- `reflectHalfword` (R64). -/
def reflectHalfword (x : Halfword) : Halfword := x.reverse

/-- `reflectWord` (R65). -/
def reflectWord (x : Word) : Word := x.reverse

/-- `gran(mode)` (R69); none for the mode None. -/
def granularity : InputReflection → Option Nat
  | .none => none
  | .byByte => some 8
  | .byHalfword => some 16
  | .byWord => some 32

/-- `rev_g(d[g*j+g-1 : g*j])`, chunk j of g bits with its bits reversed (R70, R9). -/
def reversedChunk {k : Nat} (g j : Nat) (d : BitVec k) : BitVec g :=
  (d.extractLsb' (g * j) g).reverse

/-- The lowest n chunks of g bits, each reversed in place (R70). -/
def reverseChunks {k : Nat} (g : Nat) (d : BitVec k) : Nat → BitVec k
  | 0 => 0#k
  | n + 1 => ((reversedChunk g n d).setWidth k <<< (g * n)) ||| reverseChunks g d n

/-- `reflectIn(mode, k, d)` (R70): each chunk of min(granularity, k) bits reversed in place. The reading of a width that
differs from the granularity is the spec's decision D11 (UNVERIFIED, log entry 10). -/
def reflectIn {k : Nat} (mode : InputReflection) (d : BitVec k) : BitVec k :=
  match granularity mode with
  | none => d
  | some n => reverseChunks (min n k) d (k / min n k)

/-- `reflectOut(W, v)` (R72, R73): at the polynomial's own width; for W = 7 the byte reversal shifted right by one. -/
def reflectOut (W : WidthClass) (v : Word) : Word :=
  match W with
  | .w7 => (reflectByte (v.setWidth 8) >>> 1).setWidth 32
  | .w8 => (reflectByte (v.setWidth 8)).setWidth 32
  | .w16 => (reflectHalfword (v.setWidth 16)).setWidth 32
  | .w32 => reflectWord v

end Sys2Proof.Machine
end

