-- ==== Sys2Proof/Machine/Crc.lean ====
section
/-! DEFINITION. What the engine computes (42_crc_computation.md): carry-free arithmetic in the low W bits of a 32-bit
container (R86). -/

namespace Sys2Proof.Machine

/-- The width W of a class (R76). -/
def widthBits : WidthClass → Nat
  | .w7 => 7
  | .w8 => 8
  | .w16 => 16
  | .w32 => 32

/-- `mask_W = 2^W - 1` (R7). -/
def mask (W : WidthClass) : Word := BitVec.ofNat 32 (2 ^ widthBits W - 1)

/-- One bit step (R87): the bit leaving position W-1 decides, with the input bit, whether the coefficient is added. -/
def bitStep (W : WidthClass) (P c : Word) (b : Bool) : Word :=
  ((c <<< 1) &&& mask W) ^^^ (if c.getLsbD (widthBits W - 1) ^^ b then P &&& mask W else 0#32)

/-- The bit steps of bits n-1 down to 0 of d (R88's loop, R32). -/
def digestBits {k : Nat} (W : WidthClass) (P : Word) (d : BitVec k) : Nat → Word → Word
  | 0, c => c
  | n + 1, c => digestBits W P d n (bitStep W P c (d.getLsbD n))

/-- `update(c, W, P, d, k)` (R88). -/
def update {k : Nat} (c : Word) (W : WidthClass) (P : Word) (d : BitVec k) : Word :=
  digestBits W P d k (c &&& mask W)

/-- `zext_32(INIT[W-1:0])`, the start value (R90). -/
def startValue (W : WidthClass) (init : Word) : Word := init &&& mask W

/-- `result(crc)` (R91): the low W bits, reflected if output reflection is on, zero above, no final XOR (R92). -/
def resultView (W : WidthClass) (revOut : Bool) (crc : Word) : Word :=
  if revOut then reflectOut W (crc &&& mask W) else crc &&& mask W

end Sys2Proof.Machine
end

