-- ==== Sys2Proof/Machine/Operands.lean ====
section
/-! DEFINITION. The fields of `CR` (R48-R54), what the stored codes select, and the host's access to the window (R10). -/

namespace Sys2Proof.Machine

/-! ### Codes -/

/-- `W(POLYSIZE)` (R51). -/
def widthOfCode (code : BitVec 2) : WidthClass :=
  if code = 0b00#2 then .w32 else if code = 0b01#2 then .w16 else if code = 0b10#2 then .w8 else .w7

/-- The `POLYSIZE` code of a width class (R51, R83). -/
def codeOfWidth : WidthClass → BitVec 2
  | .w32 => 0b00#2
  | .w16 => 0b01#2
  | .w8 => 0b10#2
  | .w7 => 0b11#2

/-- The `REV_IN` codes (R52). -/
def modeOfCode (code : BitVec 2) : InputReflection :=
  if code = 0b00#2 then .none else if code = 0b01#2 then .byByte
  else if code = 0b10#2 then .byHalfword else .byWord

/-- The `REV_IN` code of a mode (R52, R83). -/
def codeOfMode : InputReflection → BitVec 2
  | .none => 0b00#2
  | .byByte => 0b01#2
  | .byHalfword => 0b10#2
  | .byWord => 0b11#2

/-! ### A value written to `CR` (R48) -/

/-- Bit 0, `RESET` (R49). -/
def crOperandReset (v : Word) : Bool := v.getLsbD 0

/-- The stored fields of a written value: bits 4:3, 6:5 and 7; bits 31:8 and 2:1 are ignored (R54). -/
def crOperandFields (v : Word) : ControlReg where
  polySize := v.extractLsb' 3 2
  revIn := v.extractLsb' 5 2
  revOut := v.extractLsb' 7 1

/-- The value a read of `CR` returns: REV_OUT ++ REV_IN ++ POLYSIZE ++ 000, zero-extended (R106, R49, R54). -/
def ControlReg.value (c : ControlReg) : Word := (c.revOut ++ c.revIn ++ c.polySize ++ 0b000#3).setWidth 32

/-! ### What the registers select -/

/-- `W(CR.POLYSIZE)` (R8, R51). -/
def State.width (s : State) : WidthClass := widthOfCode s.cr.polySize

/-- The programmed input-reflection mode (R52). -/
def State.inputMode (s : State) : InputReflection := modeOfCode s.cr.revIn

/-- Whether output reflection is enabled (R53). -/
def State.outputReflect (s : State) : Bool := s.cr.revOut == 1#1

/-- The value a 32-bit read of `DR` returns (R91, R104). -/
def State.result (s : State) : Word := resultView s.width s.outputReflect s.crc

/-! ### The host's access to the window (R10, R29, R31) -/

/-- The `SZ` code and the direction bit of a data access, as a descriptor at an offset of the window (R45, R46). -/
def descriptorOf (write : Bool) (size : AccessSize) (off : BitVec 10) : Descriptor :=
  (BitVec.ofBool write ++ codeOfSize size ++ off).setWidth 13

/-- The bus value of a write: its low k bits, in the low lanes (R31, R55). -/
def busValue (size : AccessSize) (data : Word) : Word := data &&& BitVec.ofNat 32 (2 ^ size.bits - 1)

/-- The request an access makes to a block whose window begins at `base`; none for an address outside the window,
`[base, base + 0x400)`, which is no matter of the block's (R29). -/
def requestOfAccess (base : Word) (a : HostAccess) : Option BusRequest :=
  if base.toNat ≤ a.addr.toNat ∧ a.addr.toNat < base.toNat + Config.windowBytes then
    let off := BitVec.ofNat 10 (a.addr.toNat - base.toNat)
    match a.kind with
    | .read => some (.data (descriptorOf false a.size off) 0#32)
    | .write => some (.data (descriptorOf true a.size off) (busValue a.size a.data))
    | .fetch => some (.fetch off)
  else none

end Sys2Proof.Machine
end

