-- ==== Sys2Proof/Machine/Ops.lean ====
section
/-! DEFINITION. The named operations every transaction is written over: the clock check, feeding the accumulator, writing
and reading registers, the bus fault (the block's one "exception", R115), platform inputs, and what happens next. The block
has no trap return (R122), so there is none beside the fault. -/

namespace Sys2Proof.Machine

/-- Check (1) of every transaction: while the block is not clocked it has no step (R100, R118). -/
def whenClocked (s : State) (act : State → State) : Host.Outcome State Fault Refusal :=
  if s.clocked then .next (act s) else .fault .stuckNotClocked

/-! ### Registers -/

/-- Digest a k-bit data-port value (R101-R103): reflect it in, update the accumulator, nothing else (R36). -/
def State.feed {k : Nat} (x : BitVec k) (s : State) : State :=
  { s with crc := update s.crc s.width s.pol (reflectIn s.inputMode x) }

/-- A read returns a value: it joins the observed reads and no register changes (R35, R59). -/
def State.observe (v : Word) (s : State) : State := { s with reads := s.reads ++ [v] }

/-- `INIT <- v` (R107). -/
def State.writeInit (v : Word) (s : State) : State := { s with init := v }

/-- `POL <- v` (R109). -/
def State.writePol (v : Word) (s : State) : State := { s with pol := v }

/-- Store the fields of a value written to `CR` (R105). -/
def State.storeControl (v : Word) (s : State) : State := { s with cr := crOperandFields v }

/-- `RESET`: load the accumulator from `INIT` at the width now selected (R49, R90); no other register changes (R131). -/
def State.loadStart (s : State) : State := { s with crc := startValue s.width s.init }

/-- A `CR` write that changes the width without `RESET` (R117). -/
def State.changesWidthWithoutReset (v : Word) (s : State) : Bool :=
  !crOperandReset v && (crOperandFields v).polySize != s.cr.polySize

/-- A write to `CR` (R105): refused, or the fields stored and then, with `RESET` = 1, the accumulator loaded. -/
def State.writeControl (v : Word) (s : State) : State :=
  if s.changesWidthWithoutReset v then s.report .widthChangeWithoutReset
  else if crOperandReset v then (s.storeControl v).loadStart
  else s.storeControl v

/-! ### The bus fault (R115) -/

/-- What a request that is no transaction is reported as (R115, R41). -/
def faultReport : BusRequest → Report
  | .data d wdata => .busFault d (if descWrite d then some wdata else none)
  | .fetch off => .fetchFault off

/-- Take a bus fault: no register changes, the mark is set, the request is recorded, a read returns no value (R115). -/
def State.takeBusFault (r : BusRequest) (s : State) : State := s.report (faultReport r)

/-! ### Platform inputs -/

/-- A power-on or system reset of the block: every register to its reset value (R25, R130). `clocked` is not reset by the
block (R25); the marks and what was observed stay, for no mark is ever cleared (R11; DESIGN CHOICE, log entry 8). -/
def State.systemReset (s : State) : State :=
  { s with
    cr := ControlReg.reset
    init := Config.initReset
    pol := Config.polReset
    crc := Config.crcReset }

/-- A platform input lands. Switching the clock keeps every register (R128). -/
def State.land (e : PlatformInput) (s : State) : State :=
  match e with
  | .clock on => { s with clocked := on }
  | .systemReset => s.systemReset

/-! ### The bus master's side -/

/-- The host makes an access (R10): one that reaches the window joins the requests to be answered, in order (R38). -/
def State.issue (base : Word) (a : HostAccess) (s : State) : State :=
  match requestOfAccess base a with
  | some r => { s with pending := s.pending ++ [r] }
  | none => s

/-! ### What happens next -/

/-- The next thing to happen: a platform input lands, the block answers a request, or it waits for one (R132). -/
inductive Move where
  | land (e : PlatformInput) (s : State)
  | answer (r : BusRequest) (s : State)
  | wait
deriving DecidableEq, Repr

/-- One request fewer until a platform event. -/
def PlatformEvent.closer (e : PlatformEvent) : PlatformEvent := { e with after := e.after - 1 }

/-- Who moves (log entry 7): the platform, if its next input is due, or if the bus master cannot move (nothing to issue,
or stuck at an unclocked block); else the bus master, with its first request. -/
def State.nextMove (s : State) : Move :=
  match s.pending, s.platform with
  | [], [] => .wait
  | [], e :: es => .land e.what { s with platform := es }
  | r :: rs, [] => .answer r { s with pending := rs }
  | r :: rs, e :: es =>
    if e.after = 0 || !s.clocked then .land e.what { s with platform := es }
    else .answer r { s with pending := rs, platform := e.closer :: es }

end Sys2Proof.Machine
end

