-- ==== Sys2Proof/Machine/Control.lean ====
section
/-! DEFINITION. The control register (43_register_access.md, section 4). -/

namespace Sys2Proof.Machine

/-- `WR32_CR` (R105, R117). -/
def execWr32Cr (v : Word) (s : State) : Host.Outcome State Fault Refusal := whenClocked s (State.writeControl v)

/-- `RD32_CR` (R106). -/
def execRd32Cr (s : State) : Host.Outcome State Fault Refusal := whenClocked s (State.observe s.cr.value)

end Sys2Proof.Machine
end

