-- ==== Sys2Proof/Machine/DataPort.lean ====
section
/-! DEFINITION. The data-input ports and the result register (43_register_access.md, sections 2 and 3). -/

namespace Sys2Proof.Machine

/-- `WR8_DR` (R101). -/
def execWr8Dr (x : Byte) (s : State) : Host.Outcome State Fault Refusal := whenClocked s (State.feed x)

/-- `WR16_DR` (R102). -/
def execWr16Dr (x : Halfword) (s : State) : Host.Outcome State Fault Refusal := whenClocked s (State.feed x)

/-- `WR32_DR` (R103). -/
def execWr32Dr (x : Word) (s : State) : Host.Outcome State Fault Refusal := whenClocked s (State.feed x)

/-- `RD32_DR` (R104): the result view of the accumulator. -/
def execRd32Dr (s : State) : Host.Outcome State Fault Refusal := whenClocked s (State.observe s.result)

end Sys2Proof.Machine
end

