-- ==== Sys2Proof/Machine/InitPol.lean ====
section
/-! DEFINITION. The initial-value and the polynomial-coefficient register (43_register_access.md, sections 5 and 6). -/

namespace Sys2Proof.Machine

/-- `WR32_INIT` (R107). -/
def execWr32Init (v : Word) (s : State) : Host.Outcome State Fault Refusal := whenClocked s (State.writeInit v)

/-- `RD32_INIT` (R108). -/
def execRd32Init (s : State) : Host.Outcome State Fault Refusal := whenClocked s (State.observe s.init)

/-- `WR32_POL` (R109). -/
def execWr32Pol (v : Word) (s : State) : Host.Outcome State Fault Refusal := whenClocked s (State.writePol v)

/-- `RD32_POL` (R110). -/
def execRd32Pol (s : State) : Host.Outcome State Fault Refusal := whenClocked s (State.observe s.pol)

end Sys2Proof.Machine
end

