-- ==== Sys2Proof/Machine/Dispatch.lean ====
section
/-! DEFINITION. One arm per transaction of the opcode table (R56). -/

namespace Sys2Proof.Machine

def exec (i : Instr) (s : State) : Host.Outcome State Fault Refusal :=
  match i with
  | .wr8Dr x => Sys2Proof.Machine.execWr8Dr x s
  | .wr16Dr x => Sys2Proof.Machine.execWr16Dr x s
  | .wr32Dr x => Sys2Proof.Machine.execWr32Dr x s
  | .rd32Dr => Sys2Proof.Machine.execRd32Dr s
  | .wr32Cr v => Sys2Proof.Machine.execWr32Cr v s
  | .rd32Cr => Sys2Proof.Machine.execRd32Cr s
  | .wr32Init v => Sys2Proof.Machine.execWr32Init v s
  | .rd32Init => Sys2Proof.Machine.execRd32Init s
  | .wr32Pol v => Sys2Proof.Machine.execWr32Pol v s
  | .rd32Pol => Sys2Proof.Machine.execRd32Pol s

end Sys2Proof.Machine
end

