-- ==== Sys2Proof/Machine/Answer.lean ====
section
/-! DEFINITION. How the block answers one request of the bus master (R100). -/

namespace Sys2Proof.Machine

/-- Answer a request in the order of R100: the clock, then decoding (a request that is no transaction faults, R115), then
the transaction's own rule. Every meaning makes the clock check itself. -/
def answer (r : BusRequest) (s : State) : Host.Outcome State Fault Refusal :=
  match decodeRequest r with
  | .ok i => exec i s
  | .error _ => whenClocked s (State.takeBusFault r)

end Sys2Proof.Machine
end

