-- ==== Sys2Proof/Machine/Step.lean ====
section
/-! DEFINITION. One step: a platform input lands, the block answers the bus master's next request, or it waits. -/

namespace Sys2Proof.Machine

/-- One step. With nothing to do the block waits for a transaction (R132, log entry 1). -/
def step (s : State) : Host.Outcome State Fault Refusal :=
  match s.nextMove with
  | .land e s' => .next (s'.land e)
  | .answer r s' => answer r s'
  | .wait => .next s

/-- The state with the table word's request put before all others and no platform input ahead of it, so that the very next
step answers it (log entry 16). This stands for a program's load: a program is what the bus master issues (R12, log
entry 1). -/
def State.withFetchWord (s : State) (nbits w : Nat) : State :=
  { s with pending := tableRequest nbits w :: s.pending, platform := [] }

end Sys2Proof.Machine
end

