-- ==== Sys2Proof/Machine/Reference.lean ====
section
/-! DEFINITION. The document's software CRC engine (R93-R95), written from R93 alone: a pure function of the configuration
and the Steps, digesting bytes, with no register and no transaction in it. -/

namespace Sys2Proof.Machine

/-- `Polynomial.widthBits()` as a class (R76). -/
def polynomialWidth : CrcPolynomial → WidthClass
  | .poly7 _ => .w7
  | .poly8 _ => .w8
  | .poly16 _ => .w16
  | .poly32 _ => .w32

/-- `Polynomial.value()`: the coefficient widened to a 32-bit container (R77). -/
def polynomialValue : CrcPolynomial → Word
  | .poly7 c => c.setWidth 32
  | .poly8 c => c.setWidth 32
  | .poly16 c => c.setWidth 32
  | .poly32 c => c

/-- The bytes of a k-bit value, most significant first (R89, R93): bytes n-1 down to 0. -/
def bytesMsbFirst {k : Nat} (d : BitVec k) : Nat → List Byte
  | 0 => []
  | n + 1 => d.extractLsb' (8 * n) 8 :: bytesMsbFirst d n

/-- The bits of a k-bit value, most significant first: bits n-1 down to 0 (R32, R98). -/
def bitsMsbFirst {k : Nat} (d : BitVec k) : Nat → List Bool
  | 0 => []
  | n + 1 => d.getLsbD n :: bitsMsbFirst d n

/-- The bits of a Step, most significant first (R98). -/
def stepBits : DataStep → List Bool
  | .data8 x => bitsMsbFirst x 8
  | .data16 x => bitsMsbFirst x 16
  | .data32 x => bitsMsbFirst x 32

/-- The bits of all Steps, concatenated in order: the message M of R98. -/
def messageBits (steps : List DataStep) : List Bool := steps.flatMap stepBits

/-- A Step's value pre-reflected and serialised (R93). -/
def stepBytes (mode : InputReflection) : DataStep → List Byte
  | .data8 x => bytesMsbFirst (reflectIn mode x) 1
  | .data16 x => bytesMsbFirst (reflectIn mode x) 2
  | .data32 x => bytesMsbFirst (reflectIn mode x) 4

/-- Digest bytes in order (R93). -/
def digestBytes (W : WidthClass) (P : Word) (c : Word) (bytes : List Byte) : Word :=
  bytes.foldl (fun c b => update c W P b) c

/-- `swCrc(config, steps)` (R93). -/
def swCrc (config : CrcConfig) (steps : List DataStep) : Word :=
  let W := polynomialWidth config.polynomial
  let P := polynomialValue config.polynomial
  let c := steps.foldl (fun c x => digestBytes W P c (stepBytes config.inputReflection x)) (startValue W config.initialValue)
  if config.outputReflect then reflectOut W c else c

end Sys2Proof.Machine
end

