-- ==== Sys2Proof/Machine/Adapter.lean ====
section
/-! DEFINITION. How a calculation maps onto transactions: the register values of a configuration (R61, R83), the adapter
sequence and the pseudo-operations (R60, R112), and the transaction syntax (R59). -/

namespace Sys2Proof.Machine

/-- `CRV(config)` (R61, R83): output flag at bit 7, mode code at 6:5, width code at 4:3, `RESET` = 1. -/
def controlValue (config : CrcConfig) : Word :=
  ((if config.outputReflect then 1#32 else 0#32) <<< 7)
    ||| ((codeOfMode config.inputReflection).setWidth 32 <<< 5)
    ||| ((codeOfWidth (polynomialWidth config.polynomial)).setWidth 32 <<< 3)
    ||| 1#32

/-- `crc.begin` (R60). -/
def beginOps (init pol cr : Word) : List Instr := [.wr32Init init, .wr32Pol pol, .wr32Cr (cr ||| 1#32)]

/-- `crc.feed`: a Step goes to the data port of its own width, unreflected (R60, R139). -/
def feedOp : DataStep → Instr
  | .data8 x => .wr8Dr x
  | .data16 x => .wr16Dr x
  | .data32 x => .wr32Dr x

/-- `crc.run`, the adapter sequence (R60, R112). -/
def adapterSequence (config : CrcConfig) (steps : List DataStep) : List Instr :=
  beginOps config.initialValue (polynomialValue config.polynomial) (controlValue config)
    ++ steps.map feedOp ++ [.rd32Dr]

/-- The expansion of a pseudo-operation (R60). -/
def PseudoOp.expand : PseudoOp → List Instr
  | .crcBegin init pol cr => beginOps init pol cr
  | .crcFeed x => [feedOp x]
  | .crcResult => [.rd32Dr]
  | .crcRun config steps => adapterSequence config steps

/-- The transaction a line of the syntax names (R59), where it is well formed. -/
def assemble : AsmLine → Option Instr
  | .wr size reg imm =>
    if imm < 2 ^ size.bits then (transactionAt true size reg (BitVec.ofNat 32 imm)).toOption else none
  | .rd size reg => (transactionAt false size reg 0#32).toOption

end Sys2Proof.Machine
end

