-- ==== Sys2Proof/Machine/Run.lean ====
section
/-! DEFINITION. Runs of several steps or transactions, for rules that speak of a sequence (R38, R96, R97, R112). -/

namespace Sys2Proof.Machine

/-- `n` steps, ending at the first that stops. -/
def runSteps : Nat → State → Host.Outcome State Fault Refusal
  | 0, s => .next s
  | n + 1, s =>
    match step s with
    | .next t => runSteps n t
    | .fault f => .fault f
    | .refused r => .refused r

/-- Transactions performed one after another, each complete before the next (R38, R42). -/
def execAll : List Instr → State → Host.Outcome State Fault Refusal
  | [], s => .next s
  | i :: is, s =>
    match exec i s with
    | .next t => execAll is t
    | .fault f => .fault f
    | .refused r => .refused r

end Sys2Proof.Machine
end

