-- ==== Sys2Proof/Safety.lean ====
section
/-! DEFINITION. What a safe run is, and the invariants of the machine. -/

namespace Sys2Proof

/-- No mark is set: the run has not gone wrong (R13). A claim about the chip is a claim about such a run only (R116). -/
abbrev Machine.State.unmarked (s : Machine.State) : Prop := s.faulted = false ∧ s.refused = false

/-- `crc[31:W] = 0` (R26). -/
abbrev Machine.State.accumulatorFits (s : Machine.State) : Prop := s.crc &&& ~~~(Machine.mask s.width) = 0#32

/-- The marks say exactly whether a fault, and whether a refusal, has been reported (R24, R115, R117). -/
abbrev Machine.State.marksMatchReports (s : Machine.State) : Prop :=
  s.faulted = s.reports.any Machine.Report.isFault ∧ s.refused = s.reports.any Machine.Report.isRefusal

/-- The states a run from `s` passes through. -/
inductive Reaches (s : Machine.State) : Machine.State → Prop where
  | here : Reaches s s
  | further {t u : Machine.State} : Reaches s t → Machine.step t = .next u → Reaches s u

end Sys2Proof
end

