-- ==== Sys2Proof/Certificates/Slice0/Obligations.lean ====
section
/-! DEFINITION. The statements about the machine, from the numbered rules of spec/. -/

open Sys2Proof Sys2Proof.Machine

/-! ### Encoding and decoding -/

/-- Five rows of R56's table, each descriptor written out bit by bit (`WR SZ OFF`), decode to their transactions. -/
def Obligations.WrittenOutDescriptorsDecode : Prop :=
  decode 0b1_00_0000000000#13 0x00000042#32 = .ok (.wr8Dr 0x42#8) ∧
  decode 0b0_10_0000000000#13 0x00000000#32 = .ok .rd32Dr ∧
  decode 0b1_10_0000001000#13 0x000000B9#32 = .ok (.wr32Cr 0x000000B9#32) ∧
  decode 0b1_10_0000010000#13 0x12345678#32 = .ok (.wr32Init 0x12345678#32) ∧
  decode 0b0_10_0000010100#13 0x00000000#32 = .ok .rd32Pol

/-- R56, R57, R115: on a clocked block each of the ten descriptors is answered as its transaction, with the operand
`wdata[k-1:0]`; every other one is a `BusFault`: no register changes, `faulted` is set, the descriptor and a write's bus
value are recorded, no value is returned. That the machine then has a next state is the model's form (log entry 2). -/
def Obligations.AnswerFollowsTheDescriptorTable : Prop :=
  ∀ (d : Descriptor) (w : Word) (s : State), s.clocked = true →
    answer (.data d w) s =
      if d = 0x1000#13 then exec (.wr8Dr (w.extractLsb' 0 8)) s
      else if d = 0x1400#13 then exec (.wr16Dr (w.extractLsb' 0 16)) s
      else if d = 0x1800#13 then exec (.wr32Dr w) s
      else if d = 0x0800#13 then exec .rd32Dr s
      else if d = 0x1808#13 then exec (.wr32Cr w) s
      else if d = 0x0808#13 then exec .rd32Cr s
      else if d = 0x1810#13 then exec (.wr32Init w) s
      else if d = 0x0810#13 then exec .rd32Init s
      else if d = 0x1814#13 then exec (.wr32Pol w) s
      else if d = 0x0814#13 then exec .rd32Pol s
      else .next { s with
        faulted := true
        reports := s.reports ++ [.busFault d (if d.getLsbD 12 then some w else none)] }

/-- Decoding the encoding of any transaction, with any operand, gives it back (R45, R55, R56). -/
def Obligations.DecodeOfEncodeIsTheTransaction : Prop :=
  ∀ i : Instr, i.wellFormed = true → decodeRequest (encode i) = .ok i

/-- A canonical request that decodes is the encoding of what it decodes to: no two canonical requests are one transaction
(R45, R46, R47, R56). -/
def Obligations.EncodeOfDecodeIsTheRequest : Prop :=
  ∀ (r : BusRequest) (i : Instr), r.canonical = true → decodeRequest r = .ok i → encode i = r

/-- R55: the bits of the bus value above the access width are no part of the operand, and a read takes nothing from it. -/
def Obligations.BusBitsAboveTheWidthAreNoOperand : Prop :=
  ∀ (s : State) (w w' : Word),
    (w.extractLsb' 0 8 = w'.extractLsb' 0 8 → answer (.data 0x1000#13 w) s = answer (.data 0x1000#13 w') s) ∧
    (w.extractLsb' 0 16 = w'.extractLsb' 0 16 → answer (.data 0x1400#13 w) s = answer (.data 0x1400#13 w') s) ∧
    (∀ d : Descriptor, d.getLsbD 12 = false → answer (.data d w) s = answer (.data d w') s)

/-- A line of R59's syntax names a transaction exactly if it is one of the ten forms with an immediate of at most k bits. -/
def Obligations.SyntaxAssemblesExactlyTheTenForms : Prop :=
  ∀ l : AsmLine, (∃ i, assemble l = some i) ↔ l.wellFormed = true

/-- R10, R29, R31: an access inside the window becomes the request with its direction, size and offset, a write's low k
bits beside it (log entry 13); an access outside the window makes no request (log entry 12). That a fetch from the window,
which R41 makes a fault, is a request of its own kind with its offset is the model's choice (log entry 9). -/
def Obligations.WindowAccessBecomesItsRequest : Prop :=
  ∀ (base data : Word) (size : AccessSize) (off : BitVec 10), base.toNat + 0x400 ≤ 2 ^ 32 →
    (∀ v : Word, v = data &&& (match size with | .byte => 0xFF#32 | .halfword => 0xFFFF#32 | .word => 0xFFFFFFFF#32) →
      requestOfAccess base ⟨.write, base + off.setWidth 32, size, data⟩
        = some (.data ((1#1 ++ codeOfSize size ++ off).setWidth 13) v)) ∧
    requestOfAccess base ⟨.read, base + off.setWidth 32, size, data⟩
        = some (.data ((0#1 ++ codeOfSize size ++ off).setWidth 13) 0#32) ∧
    requestOfAccess base ⟨.fetch, base + off.setWidth 32, size, data⟩ = some (.fetch off) ∧
    (∀ a : HostAccess, a.addr.toNat < base.toNat ∨ base.toNat + 0x400 ≤ a.addr.toNat →
      requestOfAccess base a = none)

/-- R30, R33, R34: a data access reaches a transaction exactly at offsets 0x00, 0x08, 0x10, 0x14 with a width the table
gives the register; any other is rejected. -/
def Obligations.OnlyTheTableAccessesDecode : Prop :=
  ∀ (write : Bool) (size : AccessSize) (off : BitVec 10) (w : Word),
    (∃ i, decode (descriptorOf write size off) w = .ok i) ↔
      (off = 0x000#10 ∧ (write = true ∨ size = .word)) ∨
      ((off = 0x008#10 ∨ off = 0x010#10 ∨ off = 0x014#10) ∧ size = .word)

/-- R51 and R52: what the codes of `POLYSIZE` and `REV_IN` select. -/
def Obligations.ControlCodesSelectWidthAndMode : Prop :=
  (widthBits (widthOfCode 0b00#2) = 32 ∧ widthBits (widthOfCode 0b01#2) = 16 ∧
    widthBits (widthOfCode 0b10#2) = 8 ∧ widthBits (widthOfCode 0b11#2) = 7) ∧
  (modeOfCode 0b00#2 = .none ∧ modeOfCode 0b01#2 = .byByte ∧
    modeOfCode 0b10#2 = .byHalfword ∧ modeOfCode 0b11#2 = .byWord)

/-! ### The step -/

/-- When the next request decodes to a transaction and no platform input is ahead of it, a step is exec of that
transaction with the request taken off the queue and the next platform event one request nearer (R38, R42; the queues are
the model's, log entries 1 and 7). -/
def Obligations.StepRunsTheDecodedTransaction : Prop :=
  ∀ (s : State) (r : BusRequest) (rs : List BusRequest) (i : Instr),
    s.pending = r :: rs → decodeRequest r = .ok i → i.wellFormed = true →
    (s.platform = [] → step s = exec i { s with pending := rs }) ∧
    (∀ e es, s.platform = e :: es → e.after ≠ 0 → s.clocked = true →
      step s = exec i { s with pending := rs, platform := ⟨e.after - 1, e.what⟩ :: es })

/-- R41: a fetch from the window faults on a clocked block: no register changes and the mark is set. That the run goes on
and how the fault is recorded is the model's (log entries 2 and 9). -/
def Obligations.FetchFromTheWindowFaults : Prop :=
  ∀ (s : State) (off : BitVec 10) (rs : List BusRequest),
    s.clocked = true → s.platform = [] → s.pending = .fetch off :: rs →
    step s = .next { s with pending := rs, faulted := true, reports := s.reports ++ [.fetchFault off] }

/-- R118: while the block is not clocked every transaction has no step, and no request is answered. -/
def Obligations.UnclockedTransactionIsStuck : Prop :=
  ∀ s : State, s.clocked = false →
    (∀ i : Instr, exec i s = .fault .stuckNotClocked) ∧
    (∀ r : BusRequest, answer r s = .fault .stuckNotClocked) ∧
    (∀ r rs, s.pending = r :: rs → s.platform = [] → step s = .fault .stuckNotClocked)

/-- R119: not clocked before `BusFault` before `WidthChangeWithoutReset`, and exactly one of them is reported. -/
def Obligations.OutcomePriority : Prop :=
  ∀ (r : BusRequest) (s : State),
    (s.clocked = false → answer r s = .fault .stuckNotClocked) ∧
    (s.clocked = true → ∃ t, answer r s = .next t ∧
      ((∃ e, decodeRequest r = .error e) →
        (∃ x, x.isFault = true ∧ t.reports = s.reports ++ [x]) ∧ t.faulted = true ∧ t.refused = s.refused) ∧
      (∀ v, decodeRequest r = .ok (.wr32Cr v) → v.getLsbD 0 = false → v.extractLsb' 3 2 ≠ s.cr.polySize →
        t.reports = s.reports ++ [.widthChangeWithoutReset] ∧ t.refused = true ∧ t.faulted = s.faulted) ∧
      (∀ i, decodeRequest r = .ok i →
        (∀ v, i = .wr32Cr v → v.getLsbD 0 = false → v.extractLsb' 3 2 = s.cr.polySize) →
        t.reports = s.reports ∧ t.faulted = s.faulted ∧ t.refused = s.refused))

/-- With no request and no platform input the block waits and nothing changes (R132; the wait as a step is the model's,
log entry 1). -/
def Obligations.BlockWaitsForTransactions : Prop :=
  ∀ s : State, s.pending = [] → s.platform = [] → step s = .next s

/-- A clock switched off and on again leaves every register as it was, and in between no request is answered (R128; when
a platform input lands is the model's, log entry 7). -/
def Obligations.ClockLossKeepsTheRegisters : Prop :=
  ∀ (s : State) (n : Nat) (es : List PlatformEvent), s.clocked = true →
    s.platform = ⟨0, .clock false⟩ :: ⟨n, .clock true⟩ :: es →
    runSteps 1 s = .next { s with clocked := false, platform := ⟨n, .clock true⟩ :: es } ∧
    runSteps 2 s = .next { s with platform := es }

/-! ### Reset -/

/-- R130: a power-on or system reset sets every register to its reset value, and the marks start false. -/
def Obligations.SystemResetSetsEveryRegister : Prop :=
  (State.reset.cr = ⟨0b00#2, 0b00#2, 0b0#1⟩ ∧ State.reset.init = 0xFFFFFFFF#32 ∧ State.reset.pol = 0x04C11DB7#32 ∧
    State.reset.crc = 0xFFFFFFFF#32 ∧ State.reset.faulted = false ∧ State.reset.refused = false) ∧
  ∀ s : State, s.systemReset.cr = ⟨0b00#2, 0b00#2, 0b0#1⟩ ∧ s.systemReset.init = 0xFFFFFFFF#32 ∧
    s.systemReset.pol = 0x04C11DB7#32 ∧ s.systemReset.crc = 0xFFFFFFFF#32

/-- A system reset that is due lands in one step and changes the registers alone: it leaves the clock, the marks, the
observations and the requests as they are (the model's choices, log entries 7 and 8). -/
def Obligations.SystemResetLandsBetweenTransactions : Prop :=
  ∀ (s : State) (es : List PlatformEvent), s.platform = ⟨0, .systemReset⟩ :: es →
    step s = .next { s with
      cr := ⟨0b00#2, 0b00#2, 0b0#1⟩
      init := 0xFFFFFFFF#32
      pol := 0x04C11DB7#32
      crc := 0xFFFFFFFF#32
      platform := es }

/-! ### Reflection -/

/-- R63, R64, R65: the three reversals bit by bit, and the wider ones from the narrower. -/
def Obligations.ReflectionsReverseBitOrder : Prop :=
  (∀ (x : Byte) (i : Nat), i < 8 → (reflectByte x).getLsbD i = x.getLsbD (7 - i)) ∧
  (∀ (x : Halfword) (i : Nat), i < 16 → (reflectHalfword x).getLsbD i = x.getLsbD (15 - i)) ∧
  (∀ (x : Word) (i : Nat), i < 32 → (reflectWord x).getLsbD i = x.getLsbD (31 - i)) ∧
  (∀ x : Halfword, reflectHalfword x = reflectByte (x.extractLsb' 0 8) ++ reflectByte (x.extractLsb' 8 8)) ∧
  (∀ x : Word, reflectWord x = reflectHalfword (x.extractLsb' 0 16) ++ reflectHalfword (x.extractLsb' 16 16))

/-- R66: each reversal applied twice is the identity. -/
def Obligations.ReflectionsAreInvolutions : Prop :=
  (∀ x : Byte, reflectByte (reflectByte x) = x) ∧
  (∀ x : Halfword, reflectHalfword (reflectHalfword x) = x) ∧
  (∀ x : Word, reflectWord (reflectWord x) = x)

/-- R70: the full table of input reflection, and its corner cases. -/
def Obligations.InputReflectionTable : Prop :=
  (∀ d : Byte, reflectIn .none d = d ∧ reflectIn .byByte d = reflectByte d ∧
    reflectIn .byHalfword d = reflectByte d ∧ reflectIn .byWord d = reflectByte d) ∧
  (∀ d : Halfword, reflectIn .none d = d ∧
    reflectIn .byByte d = reflectByte (d.extractLsb' 8 8) ++ reflectByte (d.extractLsb' 0 8) ∧
    reflectIn .byHalfword d = reflectHalfword d ∧ reflectIn .byWord d = reflectHalfword d) ∧
  (∀ d : Word, reflectIn .none d = d ∧
    reflectIn .byByte d = reflectByte (d.extractLsb' 24 8) ++ reflectByte (d.extractLsb' 16 8)
      ++ reflectByte (d.extractLsb' 8 8) ++ reflectByte (d.extractLsb' 0 8) ∧
    reflectIn .byHalfword d = reflectHalfword (d.extractLsb' 16 16) ++ reflectHalfword (d.extractLsb' 0 16) ∧
    reflectIn .byWord d = reflectWord d) ∧
  (∀ m, reflectIn m 0#8 = 0#8 ∧ reflectIn m 0#16 = 0#16 ∧ reflectIn m 0#32 = 0#32 ∧
    reflectIn m 0xFF#8 = 0xFF#8 ∧ reflectIn m 0xFFFF#16 = 0xFFFF#16 ∧ reflectIn m 0xFFFFFFFF#32 = 0xFFFFFFFF#32)

/-- R72, R73: output reflection at the polynomial's own width, bit by bit, zero above; for W = 7 bit i comes from bit
6 - i, and neither bit 7 nor any bit above it takes part. -/
def Obligations.OutputReflectionBitByBit : Prop :=
  ∀ (v : Word) (i : Nat),
    (reflectOut .w8 v).getLsbD i = (decide (i < 8) && v.getLsbD (7 - i)) ∧
    (reflectOut .w16 v).getLsbD i = (decide (i < 16) && v.getLsbD (15 - i)) ∧
    (reflectOut .w32 v).getLsbD i = (decide (i < 32) && v.getLsbD (31 - i)) ∧
    (reflectOut .w7 v).getLsbD i = (decide (i < 7) && v.getLsbD (6 - i)) ∧
    reflectOut .w7 v = (reflectByte (v.extractLsb' 0 8) >>> 1).setWidth 32

/-- R74: where output reflection is an involution, and where the 7-bit one is not. -/
def Obligations.OutputReflectionTwice : Prop :=
  (reflectOut .w7 (reflectOut .w7 0xFF#32) = 0x7F#32 ∧ reflectOut .w7 (reflectOut .w7 0x80#32) = 0x00#32) ∧
  (∀ v : Word, v.toNat < 2 ^ 7 → reflectOut .w7 (reflectOut .w7 v) = v) ∧
  (∀ v : Word, v.toNat < 2 ^ 8 → reflectOut .w8 (reflectOut .w8 v) = v) ∧
  (∀ v : Word, v.toNat < 2 ^ 16 → reflectOut .w16 (reflectOut .w16 v) = v) ∧
  (∀ v : Word, reflectOut .w32 (reflectOut .w32 v) = v)

/-! ### The update -/

/-- R89: a wide value is digested as its bytes, most significant first. -/
def Obligations.UpdateIsByteSerial : Prop :=
  ∀ (W : WidthClass) (c P : Word),
    (∀ d : Halfword, update c W P d = update (update c W P (d.extractLsb' 8 8)) W P (d.extractLsb' 0 8)) ∧
    (∀ d : Word, update c W P d =
      update (update (update (update c W P (d.extractLsb' 24 8)) W P (d.extractLsb' 16 8))
        W P (d.extractLsb' 8 8)) W P (d.extractLsb' 0 8))

/-- Only the low W bits of the accumulator and the coefficient take part, and the result has nothing above W (R19, R78,
R88). -/
def Obligations.UpdateUsesAndGivesLowBitsOnly : Prop :=
  ∀ (W : WidthClass) (c P : Word) (k : Nat) (d : BitVec k),
    (update c W P d).toNat < 2 ^ widthBits W ∧
    (∀ c' P' : Word, (∀ i, i < widthBits W → c'.getLsbD i = c.getLsbD i ∧ P'.getLsbD i = P.getLsbD i) →
      update c' W P' d = update c W P d)

/-- R86: the arithmetic is carry-free: the update of a sum (xor) is the sum of the updates. -/
def Obligations.UpdateIsLinear : Prop :=
  ∀ (W : WidthClass) (P c c' : Word) (k : Nat) (d d' : BitVec k),
    update (c ^^^ c') W P (d ^^^ d') = update c W P d ^^^ update c' W P d'

/-! ### Register transactions -/

/-- R101, R102, R103: a data-port write reflects the value in, digests it and changes the accumulator alone; its
descriptor is answered so, with the low bits of the bus value as the operand. -/
def Obligations.DataPortWritesDigestTheValue : Prop :=
  ∀ s : State, s.clocked = true →
    (∀ w : Word,
      answer (.data 0x1000#13 w) s = exec (.wr8Dr (w.extractLsb' 0 8)) s ∧
      answer (.data 0x1400#13 w) s = exec (.wr16Dr (w.extractLsb' 0 16)) s ∧
      answer (.data 0x1800#13 w) s = exec (.wr32Dr w) s) ∧
    (∀ x : Byte, exec (.wr8Dr x) s = .next { s with
      crc := update s.crc (widthOfCode s.cr.polySize) s.pol (reflectIn (modeOfCode s.cr.revIn) x) }) ∧
    (∀ x : Halfword, exec (.wr16Dr x) s = .next { s with
      crc := update s.crc (widthOfCode s.cr.polySize) s.pol (reflectIn (modeOfCode s.cr.revIn) x) }) ∧
    (∀ x : Word, exec (.wr32Dr x) s = .next { s with
      crc := update s.crc (widthOfCode s.cr.polySize) s.pol (reflectIn (modeOfCode s.cr.revIn) x) })

/-- R104, R91: a read of `DR` returns the low W bits of the accumulator, reflected if enabled, with zeros above, and changes
no register; descriptor 0x0800 is answered so. -/
def Obligations.ResultReadReturnsTheAccumulatorView : Prop :=
  ∀ s : State, s.clocked = true → ∃ r : Word,
    (∀ w : Word, answer (.data 0x0800#13 w) s = exec .rd32Dr s) ∧
    exec .rd32Dr s = .next { s with reads := s.reads ++ [r] } ∧
    (s.cr.revOut = 0#1 → r = s.crc &&& mask (widthOfCode s.cr.polySize)) ∧
    (s.cr.revOut = 1#1 →
      r = reflectOut (widthOfCode s.cr.polySize) (s.crc &&& mask (widthOfCode s.cr.polySize))) ∧
    (∀ i, widthBits (widthOfCode s.cr.polySize) ≤ i → r.getLsbD i = false)

/-- R105: a `CR` write with `RESET` = 1 stores the fields and loads the accumulator at the new width; one with `RESET` = 0
and the same `POLYSIZE` stores the fields; one with `RESET` = 0 and another `POLYSIZE` is refused and changes no register.
Bits 31:8 and 2:1 of v take no part. -/
def Obligations.ControlWriteStoresAndLoads : Prop :=
  ∀ (s : State) (v : Word), s.clocked = true →
    (v.getLsbD 0 = true →
      exec (.wr32Cr v) s = .next { s with
        cr := ⟨v.extractLsb' 3 2, v.extractLsb' 5 2, v.extractLsb' 7 1⟩
        crc := s.init &&& mask (widthOfCode (v.extractLsb' 3 2)) }) ∧
    (v.getLsbD 0 = false → v.extractLsb' 3 2 = s.cr.polySize →
      exec (.wr32Cr v) s = .next { s with
        cr := ⟨v.extractLsb' 3 2, v.extractLsb' 5 2, v.extractLsb' 7 1⟩ }) ∧
    (v.getLsbD 0 = false → v.extractLsb' 3 2 ≠ s.cr.polySize →
      exec (.wr32Cr v) s = .next { s with
        refused := true, reports := s.reports ++ [.widthChangeWithoutReset] })

/-- R106: a read of `CR` (descriptor 0x0808) returns REV_OUT in bit 7, REV_IN in 6:5, POLYSIZE in 4:3, zeros elsewhere;
after reset, on a clocked block, that is 0. -/
def Obligations.ControlReadReturnsTheFields : Prop :=
  (exec .rd32Cr { State.reset with clocked := true }
    = .next { State.reset with clocked := true, reads := State.reset.reads ++ [0x00000000#32] }) ∧
  ∀ s : State, s.clocked = true → ∃ r : Word,
    (∀ w : Word, answer (.data 0x0808#13 w) s = exec .rd32Cr s) ∧
    exec .rd32Cr s = .next { s with reads := s.reads ++ [r] } ∧
    r.extractLsb' 7 1 = s.cr.revOut ∧ r.extractLsb' 5 2 = s.cr.revIn ∧ r.extractLsb' 3 2 = s.cr.polySize ∧
    r.extractLsb' 0 3 = 0#3 ∧ r.extractLsb' 8 24 = 0#24

/-- A `CR` write that is not refused, read back, gives the written value with `RESET` and the reserved bits zero (R49, R54). -/
def Obligations.ControlReadsBackWithoutResetAndReservedBits : Prop :=
  ∀ (s : State) (v : Word), s.clocked = true → (v.getLsbD 0 = true ∨ v.extractLsb' 3 2 = s.cr.polySize) →
    ∃ t, execAll [.wr32Cr v, .rd32Cr] s = .next t ∧ t.reads = s.reads ++ [v &&& 0xF8#32]

/-- R108: a read of `INIT` (descriptor 0x0810) returns all 32 bits as last written, whatever `CR.POLYSIZE` is. -/
def Obligations.InitReadReturnsTheLastWrittenValue : Prop :=
  ∀ (s : State) (v : Word), s.clocked = true →
    answer (.data 0x0810#13 v) s = exec .rd32Init s ∧
    exec .rd32Init s = .next { s with reads := s.reads ++ [s.init] } ∧
    execAll [.wr32Init v, .rd32Init] s = .next { s with init := v, reads := s.reads ++ [v] }

/-- R107: a write of `INIT` (descriptor 0x1810) stores the value and changes nothing else; every transaction but a read or
write of `INIT` and a `CR` write with `RESET` = 1 does the same whatever `INIT` holds; a `CR` write with `RESET` = 1 loads
its low W bits. That a refused `CR` write answers a next state is the model's (log entry 3). -/
def Obligations.InitWriteActsOnlyAtReset : Prop :=
  ∀ (s : State) (v : Word), s.clocked = true →
    answer (.data 0x1810#13 v) s = exec (.wr32Init v) s ∧
    exec (.wr32Init v) s = .next { s with init := v } ∧
    (∀ u : Word, u.getLsbD 0 = true → ∃ t, execAll [.wr32Init v, .wr32Cr u] s = .next t ∧
      t.crc = v &&& mask (widthOfCode (u.extractLsb' 3 2))) ∧
    ∀ i : Instr, i ≠ .rd32Init → (∀ u, i ≠ .wr32Init u) → (∀ u, i = .wr32Cr u → u.getLsbD 0 = false) →
      ∃ t, exec i s = .next t ∧ exec i { s with init := v } = .next { t with init := v }

/-- R109, R110: a write of `POL` (descriptor 0x1814) stores all 32 bits and leaves the accumulator; a read (0x0814)
returns them as last written; every transaction but a `POL` write leaves `POL` as written, and a data-port write, at
each width, digests its value with that coefficient, of which the low W bits alone take part. -/
def Obligations.PolWriteActsOnLaterDataWrites : Prop :=
  ∀ (s : State) (v : Word), s.clocked = true →
    answer (.data 0x1814#13 v) s = exec (.wr32Pol v) s ∧
    answer (.data 0x0814#13 v) s = exec .rd32Pol s ∧
    exec (.wr32Pol v) s = .next { s with pol := v } ∧
    exec .rd32Pol s = .next { s with reads := s.reads ++ [s.pol] } ∧
    execAll [.wr32Pol v, .rd32Pol] s = .next { s with pol := v, reads := s.reads ++ [v] } ∧
    (∀ (i : Instr) (t : State), (∀ u, i ≠ .wr32Pol u) → exec i s = .next t → t.pol = s.pol) ∧
    (∀ x : DataStep, ∃ t, exec (feedOp x) { s with pol := v } = .next t ∧
      t.crc = (match x with
        | .data8 d => update s.crc s.width v (reflectIn s.inputMode d)
        | .data16 d => update s.crc s.width v (reflectIn s.inputMode d)
        | .data32 d => update s.crc s.width v (reflectIn s.inputMode d)) ∧
      exec (feedOp x) { s with pol := v &&& mask s.width } = .next { t with pol := v &&& mask s.width })

/-! ### Whole-machine rules -/

/-- Every transaction on a clocked block has a next state, and but for a width change without `RESET` it leaves marks and
reports alone (R85, R100, R114). That the refused `CR` write, whose outcome R11 keeps apart, answers a next state is the
model's (DEDUCED, log entry 3). -/
def Obligations.EveryTransactionCompletes : Prop :=
  ∀ (i : Instr) (s : State), s.clocked = true →
    ∃ t, exec i s = .next t ∧ t.faulted = s.faulted ∧
      ((∀ v, i = .wr32Cr v → v.getLsbD 0 = false → v.extractLsb' 3 2 = s.cr.polySize) →
        t.refused = s.refused ∧ t.reports = s.reports)

/-- The frame of every transaction (R28, R35, R36, R100): what it may change is named, all else is
unchanged. A refused `CR` write is among them, as a next state (the model's, log entry 3). -/
def Obligations.TransactionFrame : Prop :=
  ∀ (i : Instr) (s t : State), exec i s = .next t →
    (t.cr = s.cr ∨ ∃ v, i = .wr32Cr v) ∧
    (t.init = s.init ∨ ∃ v, i = .wr32Init v) ∧
    (t.pol = s.pol ∨ ∃ v, i = .wr32Pol v) ∧
    (t.crc = s.crc ∨ (∃ x, i = feedOp x) ∨ ∃ v, i = .wr32Cr v ∧ v.getLsbD 0 = true) ∧
    (t.reads = s.reads ∨ (∃ v, t.reads = s.reads ++ [v]) ∧
      (i = .rd32Dr ∨ i = .rd32Cr ∨ i = .rd32Init ∨ i = .rd32Pol)) ∧
    t.faulted = s.faulted ∧
    ((t.refused = s.refused ∧ t.reports = s.reports) ∨ ∃ v, i = .wr32Cr v ∧ v.getLsbD 0 = false) ∧
    t.clocked = s.clocked ∧ t.pending = s.pending ∧ t.platform = s.platform

/-- R28: in any step, only a data-port write, a `CR` write with `RESET` = 1 and a system reset change `crc`, and only a
write of the register or a system reset changes `CR`, `INIT` or `POL`. -/
def Obligations.StateChangesOnlyByWriteOrReset : Prop :=
  ∀ s t : State, step s = .next t →
    (∃ e es, s.platform = e :: es ∧ e.what = .systemReset ∧
      (s.pending = [] ∨ e.after = 0 ∨ s.clocked = false)) ∨
    ∃ i : Option Instr, (∀ j, i = some j → ∃ r rs, s.pending = r :: rs ∧ decodeRequest r = .ok j) ∧
      (t.crc ≠ s.crc → (∃ x, i = some (feedOp x)) ∨ ∃ v, i = some (.wr32Cr v) ∧ v.getLsbD 0 = true) ∧
      (t.cr ≠ s.cr → ∃ v, i = some (.wr32Cr v)) ∧
      (t.init ≠ s.init → ∃ v, i = some (.wr32Init v)) ∧
      (t.pol ≠ s.pol → ∃ v, i = some (.wr32Pol v))

/-- R35: a read changes no state of the block, and two reads in a row return the same value. -/
def Obligations.ReadsHaveNoSideEffects : Prop :=
  ∀ (i : Instr) (s : State), s.clocked = true →
    i = .rd32Dr ∨ i = .rd32Cr ∨ i = .rd32Init ∨ i = .rd32Pol →
    ∃ r, exec i s = .next { s with reads := s.reads ++ [r] } ∧
      execAll [i, i] s = .next { s with reads := s.reads ++ [r, r] }

/-- R36: `CR` writes with `RESET` = 1, `INIT` writes and `POL` writes are idempotent; a data-port write is not, at any
width. -/
def Obligations.WriteIdempotence : Prop :=
  (∀ (s : State) (v : Word), s.clocked = true →
    execAll [.wr32Init v, .wr32Init v] s = execAll [.wr32Init v] s ∧
    execAll [.wr32Pol v, .wr32Pol v] s = execAll [.wr32Pol v] s ∧
    (v.getLsbD 0 = true → execAll [.wr32Cr v, .wr32Cr v] s = execAll [.wr32Cr v] s)) ∧
  (∃ (s : State) (x : Byte), execAll [.wr8Dr x, .wr8Dr x] s ≠ execAll [.wr8Dr x] s) ∧
  (∃ (s : State) (x : Halfword), execAll [.wr16Dr x, .wr16Dr x] s ≠ execAll [.wr16Dr x] s) ∧
  (∃ (s : State) (x : Word), execAll [.wr32Dr x, .wr32Dr x] s ≠ execAll [.wr32Dr x] s)

/-- R134: the order of the `INIT` and `POL` writes before the `RESET` write does not matter. The
statement holds for any `CR` write after them; that a refused one answers a next state is the model's (log entry 3). -/
def Obligations.InitAndPolWritesCommute : Prop :=
  ∀ (s : State) (a b v : Word), s.clocked = true →
    ∃ t, execAll [.wr32Init a, .wr32Pol b, .wr32Cr v] s = .next t ∧
      execAll [.wr32Pol b, .wr32Init a, .wr32Cr v] s = .next t

/-- R111: a `CR` write with `RESET` = 0 and the same `POLYSIZE` leaves `crc` and sets the input mode of the data write after
it and the output view of the read after that; a `POL` write sets the coefficient of the data write after it; an `INIT`
write leaves the data write after it alone. -/
def Obligations.ConfigurationChangeActsAtTheNextUse : Prop :=
  ∀ (s : State) (v : Word) (x : Byte), s.clocked = true →
    (v.getLsbD 0 = false → v.extractLsb' 3 2 = s.cr.polySize →
      ∃ t, execAll [.wr32Cr v, .wr8Dr x, .rd32Dr] s = .next t ∧
        t.crc = update s.crc (widthOfCode s.cr.polySize) s.pol (reflectIn (modeOfCode (v.extractLsb' 5 2)) x) ∧
        t.reads = s.reads ++ [resultView (widthOfCode s.cr.polySize) (v.getLsbD 7) t.crc]) ∧
    (∃ t, execAll [.wr32Pol v, .wr8Dr x] s = .next t ∧
      t.crc = update s.crc (widthOfCode s.cr.polySize) v (reflectIn (modeOfCode s.cr.revIn) x)) ∧
    (∃ t, execAll [.wr32Init v, .wr8Dr x] s = .next t ∧
      t.crc = update s.crc (widthOfCode s.cr.polySize) s.pol (reflectIn (modeOfCode s.cr.revIn) x))

/-- No step clears a mark (R11, R24; that a system reset keeps them too is log entry 8). -/
def Obligations.MarksAreNeverCleared : Prop :=
  ∀ s t : State, step s = .next t →
    (s.faulted = true → t.faulted = true) ∧ (s.refused = true → t.refused = true)

/-- A step appends at most one value to the observed reads, and only in answering a read (R13, R59, R115). -/
def Obligations.ObservedReadsOnlyGrow : Prop :=
  ∀ s t : State, step s = .next t →
    t.reads = s.reads ∨
    ∃ v r rs i, t.reads = s.reads ++ [v] ∧ s.pending = r :: rs ∧ decodeRequest r = .ok i ∧
      (i = .rd32Dr ∨ i = .rd32Cr ∨ i = .rd32Init ∨ i = .rd32Pol)

/-! ### Invariants -/

/-- Every step keeps `crc[31:W] = 0` (R26). -/
def Obligations.StepKeepsAccumulatorInWidth : Prop :=
  ∀ s t : State, s.accumulatorFits → step s = .next t → t.accumulatorFits

/-- R26: `crc[31:W] = 0` in every state reached from reset, whatever the bus master and the platform do. -/
def Obligations.ReachableAccumulatorFits : Prop :=
  ∀ (requests : List BusRequest) (events : List PlatformEvent) (t : State),
    Reaches { State.reset with pending := requests, platform := events } t →
    ∀ i, widthBits t.width ≤ i → t.crc.getLsbD i = false

/-- Every step keeps the marks in agreement with the reports: a mark is set exactly if a report of its kind was made (R24,
R115, R117; the reports are the model's form, log entry 15). -/
def Obligations.StepKeepsMarksInAgreement : Prop :=
  ∀ s t : State, s.marksMatchReports → step s = .next t → t.marksMatchReports

/-- Both invariants hold at reset (R25, R26). -/
def Obligations.ResetMeetsTheInvariants : Prop :=
  State.reset.accumulatorFits ∧ State.reset.marksMatchReports

/-! ### The reference engine -/

/-- R83, R61: the control value of a configuration selects its width, its input mode and its output flag, and, as it
carries `RESET` = 1, loads the low W bits of the initial value. -/
def Obligations.ControlValueSelectsTheConfiguration : Prop :=
  ∀ (config : CrcConfig) (s : State), s.clocked = true →
    ∃ t, exec (.wr32Cr (controlValue config)) { s with init := config.initialValue } = .next t ∧
      t.width = polynomialWidth config.polynomial ∧
      t.inputMode = config.inputReflection ∧
      t.outputReflect = config.outputReflect ∧
      t.crc = config.initialValue &&& mask (polynomialWidth config.polynomial)

/-- R96: the value the hardware returns for a calculation's adapter sequence equals the reference engine's, for every
configuration and Step list, from every clocked state, and no mark is set on the way. -/
def Obligations.HardwareResultEqualsReference : Prop :=
  ∀ (config : CrcConfig) (steps : List DataStep) (rest : List BusRequest) (s : State),
    s.clocked = true → s.platform = [] →
    s.pending = (adapterSequence config steps).map encode ++ rest →
    ∃ t, runSteps (steps.length + 4) s = .next t ∧ t.reads = s.reads ++ [swCrc config steps] ∧
      t.pending = rest ∧ t.faulted = s.faulted ∧ t.refused = s.refused ∧ t.reports = s.reports

/-- R113: the adapter sequence is never turned away while the block is clocked, and what it reads is the same from any two
states. -/
def Obligations.AdapterResultIgnoresTheStateBefore : Prop :=
  ∀ (config : CrcConfig) (steps : List DataStep) (s s' : State), s.clocked = true → s'.clocked = true →
    ∃ (t t' : State) (r : Word),
      execAll (adapterSequence config steps) s = .next t ∧ execAll (adapterSequence config steps) s' = .next t' ∧
      t.reads = s.reads ++ [r] ∧ t'.reads = s'.reads ++ [r] ∧
      t.faulted = s.faulted ∧ t.refused = s.refused ∧ t.reports = s.reports

/-- R95: the empty calculation returns the low W bits of the initial value, output-reflected if enabled, in the reference
and in the hardware. -/
def Obligations.EmptyCalculationReturnsTheInitialValue : Prop :=
  ∀ (config : CrcConfig) (s : State) (W : WidthClass), W = polynomialWidth config.polynomial → s.clocked = true →
    swCrc config [] = (if config.outputReflect then reflectOut W (config.initialValue &&& mask W)
      else config.initialValue &&& mask W) ∧
    ∃ t, execAll (PseudoOp.expand (.crcBegin config.initialValue (polynomialValue config.polynomial) (controlValue config))
        ++ PseudoOp.expand .crcResult) s = .next t ∧
      t.reads = s.reads ++ [swCrc config []]

/-- R97: one word, two halfwords and four bytes give the same result under None and ByByte; under ByHalfword the word and
the halfwords agree, and some calculation tells them from the bytes; under ByWord some calculation gives three different
results. -/
def Obligations.WidthSplitting : Prop :=
  (∀ (config : CrcConfig) (d : Word),
    (config.inputReflection = .none ∨ config.inputReflection = .byByte →
      swCrc config [.data32 d] = swCrc config [.data16 (d.extractLsb' 16 16), .data16 (d.extractLsb' 0 16)] ∧
      swCrc config [.data32 d] = swCrc config [.data8 (d.extractLsb' 24 8), .data8 (d.extractLsb' 16 8),
        .data8 (d.extractLsb' 8 8), .data8 (d.extractLsb' 0 8)]) ∧
    (config.inputReflection = .byHalfword →
      swCrc config [.data32 d] = swCrc config [.data16 (d.extractLsb' 16 16), .data16 (d.extractLsb' 0 16)])) ∧
  (∃ config : CrcConfig, config.inputReflection = .byHalfword ∧
    swCrc config [.data32 0xAABBCCDD#32] ≠
      swCrc config [.data8 0xAA#8, .data8 0xBB#8, .data8 0xCC#8, .data8 0xDD#8]) ∧
  (∃ config : CrcConfig, config.inputReflection = .byWord ∧
    swCrc config [.data32 0xAABBCCDD#32] ≠ swCrc config [.data16 0xAABB#16, .data16 0xCCDD#16] ∧
    swCrc config [.data32 0xAABBCCDD#32] ≠
      swCrc config [.data8 0xAA#8, .data8 0xBB#8, .data8 0xCC#8, .data8 0xDD#8] ∧
    swCrc config [.data16 0xAABB#16, .data16 0xCCDD#16] ≠
      swCrc config [.data8 0xAA#8, .data8 0xBB#8, .data8 0xCC#8, .data8 0xDD#8])

/-- R98: with no reflection, the hardware's result is the remainder of I(x) * x^n + M(x) * x^W divided by the generator
G(x), over GF(2), where the n bits of M are the Steps' bits concatenated most significant first. -/
def Obligations.ResultIsThePolynomialRemainder : Prop :=
  ∀ (config : CrcConfig) (steps : List DataStep) (s : State), s.clocked = true →
    config.inputReflection = .none → config.outputReflect = false →
    let W := widthBits (polynomialWidth config.polynomial)
    let poly : List Bool → Polynomial (ZMod 2) := fun bits =>
      bits.foldl (fun p b => p * Polynomial.X + if b then 1 else 0) 0
    let G : Polynomial (ZMod 2) :=
      Polynomial.X ^ W + poly (bitsMsbFirst (polynomialValue config.polynomial) W)
    let M := messageBits steps
    ∃ (t : State) (r : Word), execAll (adapterSequence config steps) s = .next t ∧ t.reads = s.reads ++ [r] ∧
      poly (bitsMsbFirst r 32) =
        Polynomial.modByMonic
          (poly (bitsMsbFirst config.initialValue W) * Polynomial.X ^ M.length + poly M * Polynomial.X ^ W) G
end

