-- ==== Sys2Proof/Laws/Crc.lean ====
section
/-! SUPPORT. Small facts about the mask, the bit step and the bit loop. -/

namespace Sys2Proof.Machine

theorem widthBits_pos (W : WidthClass) : 0 < widthBits W := by cases W <;> decide

theorem widthBits_le (W : WidthClass) : widthBits W ≤ 32 := by cases W <;> decide

/-- Bit i of `mask_W` is set exactly below W (R7). -/
theorem mask_getLsbD (W : WidthClass) (i : Nat) : (mask W).getLsbD i = decide (i < widthBits W) := by
  by_cases h : i < 32
  · cases W <;> revert i <;> decide
  · have := widthBits_le W
    rw [BitVec.getLsbD_of_ge _ _ (by omega)]
    simp; omega

theorem bitStep_and_mask (W : WidthClass) (P c : Word) (b : Bool) :
    bitStep W P c b &&& mask W = bitStep W P c b := by
  unfold bitStep
  ext i hi
  cases h : (mask W)[i] <;> split <;> simp [h]

/-- The bits a bit step gives (R87): below W, the bit to the right, with the coefficient's bit added on feedback. -/
theorem bitStep_getLsbD (W : WidthClass) (P c : Word) (b : Bool) (i : Nat) (hi : i < 32) :
    (bitStep W P c b).getLsbD i =
      (decide (i < widthBits W) &&
        ((decide (0 < i) && c.getLsbD (i - 1)) ^^ ((c.getLsbD (widthBits W - 1) ^^ b) && P.getLsbD i))) := by
  have hfb : (if c.getLsbD (widthBits W - 1) ^^ b then P &&& mask W else 0#32).getLsbD i =
      ((c.getLsbD (widthBits W - 1) ^^ b) && (P.getLsbD i && decide (i < widthBits W))) := by
    split <;> rename_i h
    · rw [h, BitVec.getLsbD_and, mask_getLsbD, Bool.true_and]
    · rw [Bool.eq_false_iff.2 h, BitVec.getLsbD_zero, Bool.false_and]
  have hpos : (!decide (i < 1)) = decide (0 < i) := by rcases i with _ | i <;> rfl
  rw [bitStep, BitVec.getLsbD_xor, hfb, BitVec.getLsbD_and, mask_getLsbD, BitVec.getLsbD_shiftLeft, hpos,
    decide_eq_true hi]
  generalize (c.getLsbD (widthBits W - 1) ^^ b) = feedback
  cases decide (i < widthBits W) <;> cases decide (0 < i) <;> cases feedback <;> cases P.getLsbD i <;>
    cases c.getLsbD (i - 1) <;> rfl

@[simp] theorem digestBits_zero {k : Nat} (W : WidthClass) (P : Word) (d : BitVec k) (c : Word) :
    digestBits W P d 0 c = c := rfl

theorem digestBits_succ {k : Nat} (W : WidthClass) (P : Word) (d : BitVec k) (n : Nat) (c : Word) :
    digestBits W P d (n + 1) c = digestBits W P d n (bitStep W P c (d.getLsbD n)) := rfl

end Sys2Proof.Machine
end

