-- ==== Sys2Proof/Laws/State.lean ====
section
/-! SUPPORT. What each operation does to each field of State, so that no later proof unfolds a record update. -/

namespace Sys2Proof.Machine

/-! ### feed -/

@[simp] theorem State.feed_cr {k : Nat} (x : BitVec k) (s : State) : (s.feed x).cr = s.cr := rfl
@[simp] theorem State.feed_init {k : Nat} (x : BitVec k) (s : State) : (s.feed x).init = s.init := rfl
@[simp] theorem State.feed_pol {k : Nat} (x : BitVec k) (s : State) : (s.feed x).pol = s.pol := rfl
@[simp] theorem State.feed_crc {k : Nat} (x : BitVec k) (s : State) : (s.feed x).crc = update s.crc s.width s.pol (reflectIn s.inputMode x) := rfl
@[simp] theorem State.feed_clocked {k : Nat} (x : BitVec k) (s : State) : (s.feed x).clocked = s.clocked := rfl
@[simp] theorem State.feed_faulted {k : Nat} (x : BitVec k) (s : State) : (s.feed x).faulted = s.faulted := rfl
@[simp] theorem State.feed_refused {k : Nat} (x : BitVec k) (s : State) : (s.feed x).refused = s.refused := rfl
@[simp] theorem State.feed_reads {k : Nat} (x : BitVec k) (s : State) : (s.feed x).reads = s.reads := rfl
@[simp] theorem State.feed_reports {k : Nat} (x : BitVec k) (s : State) : (s.feed x).reports = s.reports := rfl
@[simp] theorem State.feed_pending {k : Nat} (x : BitVec k) (s : State) : (s.feed x).pending = s.pending := rfl
@[simp] theorem State.feed_platform {k : Nat} (x : BitVec k) (s : State) : (s.feed x).platform = s.platform := rfl

/-! ### observe -/

@[simp] theorem State.observe_cr (v : Word) (s : State) : (s.observe v).cr = s.cr := rfl
@[simp] theorem State.observe_init (v : Word) (s : State) : (s.observe v).init = s.init := rfl
@[simp] theorem State.observe_pol (v : Word) (s : State) : (s.observe v).pol = s.pol := rfl
@[simp] theorem State.observe_crc (v : Word) (s : State) : (s.observe v).crc = s.crc := rfl
@[simp] theorem State.observe_clocked (v : Word) (s : State) : (s.observe v).clocked = s.clocked := rfl
@[simp] theorem State.observe_faulted (v : Word) (s : State) : (s.observe v).faulted = s.faulted := rfl
@[simp] theorem State.observe_refused (v : Word) (s : State) : (s.observe v).refused = s.refused := rfl
@[simp] theorem State.observe_reads (v : Word) (s : State) : (s.observe v).reads = s.reads ++ [v] := rfl
@[simp] theorem State.observe_reports (v : Word) (s : State) : (s.observe v).reports = s.reports := rfl
@[simp] theorem State.observe_pending (v : Word) (s : State) : (s.observe v).pending = s.pending := rfl
@[simp] theorem State.observe_platform (v : Word) (s : State) : (s.observe v).platform = s.platform := rfl

/-! ### writeInit -/

@[simp] theorem State.writeInit_cr (v : Word) (s : State) : (s.writeInit v).cr = s.cr := rfl
@[simp] theorem State.writeInit_init (v : Word) (s : State) : (s.writeInit v).init = v := rfl
@[simp] theorem State.writeInit_pol (v : Word) (s : State) : (s.writeInit v).pol = s.pol := rfl
@[simp] theorem State.writeInit_crc (v : Word) (s : State) : (s.writeInit v).crc = s.crc := rfl
@[simp] theorem State.writeInit_clocked (v : Word) (s : State) : (s.writeInit v).clocked = s.clocked := rfl
@[simp] theorem State.writeInit_faulted (v : Word) (s : State) : (s.writeInit v).faulted = s.faulted := rfl
@[simp] theorem State.writeInit_refused (v : Word) (s : State) : (s.writeInit v).refused = s.refused := rfl
@[simp] theorem State.writeInit_reads (v : Word) (s : State) : (s.writeInit v).reads = s.reads := rfl
@[simp] theorem State.writeInit_reports (v : Word) (s : State) : (s.writeInit v).reports = s.reports := rfl
@[simp] theorem State.writeInit_pending (v : Word) (s : State) : (s.writeInit v).pending = s.pending := rfl
@[simp] theorem State.writeInit_platform (v : Word) (s : State) : (s.writeInit v).platform = s.platform := rfl

/-! ### writePol -/

@[simp] theorem State.writePol_cr (v : Word) (s : State) : (s.writePol v).cr = s.cr := rfl
@[simp] theorem State.writePol_init (v : Word) (s : State) : (s.writePol v).init = s.init := rfl
@[simp] theorem State.writePol_pol (v : Word) (s : State) : (s.writePol v).pol = v := rfl
@[simp] theorem State.writePol_crc (v : Word) (s : State) : (s.writePol v).crc = s.crc := rfl
@[simp] theorem State.writePol_clocked (v : Word) (s : State) : (s.writePol v).clocked = s.clocked := rfl
@[simp] theorem State.writePol_faulted (v : Word) (s : State) : (s.writePol v).faulted = s.faulted := rfl
@[simp] theorem State.writePol_refused (v : Word) (s : State) : (s.writePol v).refused = s.refused := rfl
@[simp] theorem State.writePol_reads (v : Word) (s : State) : (s.writePol v).reads = s.reads := rfl
@[simp] theorem State.writePol_reports (v : Word) (s : State) : (s.writePol v).reports = s.reports := rfl
@[simp] theorem State.writePol_pending (v : Word) (s : State) : (s.writePol v).pending = s.pending := rfl
@[simp] theorem State.writePol_platform (v : Word) (s : State) : (s.writePol v).platform = s.platform := rfl

/-! ### storeControl -/

@[simp] theorem State.storeControl_cr (v : Word) (s : State) : (s.storeControl v).cr = crOperandFields v := rfl
@[simp] theorem State.storeControl_init (v : Word) (s : State) : (s.storeControl v).init = s.init := rfl
@[simp] theorem State.storeControl_pol (v : Word) (s : State) : (s.storeControl v).pol = s.pol := rfl
@[simp] theorem State.storeControl_crc (v : Word) (s : State) : (s.storeControl v).crc = s.crc := rfl
@[simp] theorem State.storeControl_clocked (v : Word) (s : State) : (s.storeControl v).clocked = s.clocked := rfl
@[simp] theorem State.storeControl_faulted (v : Word) (s : State) : (s.storeControl v).faulted = s.faulted := rfl
@[simp] theorem State.storeControl_refused (v : Word) (s : State) : (s.storeControl v).refused = s.refused := rfl
@[simp] theorem State.storeControl_reads (v : Word) (s : State) : (s.storeControl v).reads = s.reads := rfl
@[simp] theorem State.storeControl_reports (v : Word) (s : State) : (s.storeControl v).reports = s.reports := rfl
@[simp] theorem State.storeControl_pending (v : Word) (s : State) : (s.storeControl v).pending = s.pending := rfl
@[simp] theorem State.storeControl_platform (v : Word) (s : State) : (s.storeControl v).platform = s.platform := rfl

/-! ### loadStart -/

@[simp] theorem State.loadStart_cr (s : State) : (s.loadStart).cr = s.cr := rfl
@[simp] theorem State.loadStart_init (s : State) : (s.loadStart).init = s.init := rfl
@[simp] theorem State.loadStart_pol (s : State) : (s.loadStart).pol = s.pol := rfl
@[simp] theorem State.loadStart_crc (s : State) : (s.loadStart).crc = startValue s.width s.init := rfl
@[simp] theorem State.loadStart_clocked (s : State) : (s.loadStart).clocked = s.clocked := rfl
@[simp] theorem State.loadStart_faulted (s : State) : (s.loadStart).faulted = s.faulted := rfl
@[simp] theorem State.loadStart_refused (s : State) : (s.loadStart).refused = s.refused := rfl
@[simp] theorem State.loadStart_reads (s : State) : (s.loadStart).reads = s.reads := rfl
@[simp] theorem State.loadStart_reports (s : State) : (s.loadStart).reports = s.reports := rfl
@[simp] theorem State.loadStart_pending (s : State) : (s.loadStart).pending = s.pending := rfl
@[simp] theorem State.loadStart_platform (s : State) : (s.loadStart).platform = s.platform := rfl

/-! ### report -/

@[simp] theorem State.report_cr (r : Report) (s : State) : (s.report r).cr = s.cr := rfl
@[simp] theorem State.report_init (r : Report) (s : State) : (s.report r).init = s.init := rfl
@[simp] theorem State.report_pol (r : Report) (s : State) : (s.report r).pol = s.pol := rfl
@[simp] theorem State.report_crc (r : Report) (s : State) : (s.report r).crc = s.crc := rfl
@[simp] theorem State.report_clocked (r : Report) (s : State) : (s.report r).clocked = s.clocked := rfl
@[simp] theorem State.report_faulted (r : Report) (s : State) : (s.report r).faulted = (s.faulted || r.isFault) := rfl
@[simp] theorem State.report_refused (r : Report) (s : State) : (s.report r).refused = (s.refused || r.isRefusal) := rfl
@[simp] theorem State.report_reads (r : Report) (s : State) : (s.report r).reads = s.reads := rfl
@[simp] theorem State.report_reports (r : Report) (s : State) : (s.report r).reports = s.reports ++ [r] := rfl
@[simp] theorem State.report_pending (r : Report) (s : State) : (s.report r).pending = s.pending := rfl
@[simp] theorem State.report_platform (r : Report) (s : State) : (s.report r).platform = s.platform := rfl

/-! ### systemReset -/

@[simp] theorem State.systemReset_cr (s : State) : (s.systemReset).cr = ControlReg.reset := rfl
@[simp] theorem State.systemReset_init (s : State) : (s.systemReset).init = Config.initReset := rfl
@[simp] theorem State.systemReset_pol (s : State) : (s.systemReset).pol = Config.polReset := rfl
@[simp] theorem State.systemReset_crc (s : State) : (s.systemReset).crc = Config.crcReset := rfl
@[simp] theorem State.systemReset_clocked (s : State) : (s.systemReset).clocked = s.clocked := rfl
@[simp] theorem State.systemReset_faulted (s : State) : (s.systemReset).faulted = s.faulted := rfl
@[simp] theorem State.systemReset_refused (s : State) : (s.systemReset).refused = s.refused := rfl
@[simp] theorem State.systemReset_reads (s : State) : (s.systemReset).reads = s.reads := rfl
@[simp] theorem State.systemReset_reports (s : State) : (s.systemReset).reports = s.reports := rfl
@[simp] theorem State.systemReset_pending (s : State) : (s.systemReset).pending = s.pending := rfl
@[simp] theorem State.systemReset_platform (s : State) : (s.systemReset).platform = s.platform := rfl

/-! ### What the registers select -/

@[simp] theorem State.feed_width {k : Nat} (x : BitVec k) (s : State) : (s.feed x).width = s.width := rfl
@[simp] theorem State.feed_inputMode {k : Nat} (x : BitVec k) (s : State) : (s.feed x).inputMode = s.inputMode := rfl
@[simp] theorem State.feed_outputReflect {k : Nat} (x : BitVec k) (s : State) : (s.feed x).outputReflect = s.outputReflect := rfl
@[simp] theorem State.observe_width (v : Word) (s : State) : (s.observe v).width = s.width := rfl
@[simp] theorem State.observe_inputMode (v : Word) (s : State) : (s.observe v).inputMode = s.inputMode := rfl
@[simp] theorem State.observe_outputReflect (v : Word) (s : State) : (s.observe v).outputReflect = s.outputReflect := rfl
@[simp] theorem State.writeInit_width (v : Word) (s : State) : (s.writeInit v).width = s.width := rfl
@[simp] theorem State.writeInit_inputMode (v : Word) (s : State) : (s.writeInit v).inputMode = s.inputMode := rfl
@[simp] theorem State.writeInit_outputReflect (v : Word) (s : State) : (s.writeInit v).outputReflect = s.outputReflect := rfl
@[simp] theorem State.writePol_width (v : Word) (s : State) : (s.writePol v).width = s.width := rfl
@[simp] theorem State.writePol_inputMode (v : Word) (s : State) : (s.writePol v).inputMode = s.inputMode := rfl
@[simp] theorem State.writePol_outputReflect (v : Word) (s : State) : (s.writePol v).outputReflect = s.outputReflect := rfl
@[simp] theorem State.loadStart_width (s : State) : (s.loadStart).width = s.width := rfl
@[simp] theorem State.loadStart_inputMode (s : State) : (s.loadStart).inputMode = s.inputMode := rfl
@[simp] theorem State.loadStart_outputReflect (s : State) : (s.loadStart).outputReflect = s.outputReflect := rfl
@[simp] theorem State.report_width (r : Report) (s : State) : (s.report r).width = s.width := rfl
@[simp] theorem State.report_inputMode (r : Report) (s : State) : (s.report r).inputMode = s.inputMode := rfl
@[simp] theorem State.report_outputReflect (r : Report) (s : State) : (s.report r).outputReflect = s.outputReflect := rfl

end Sys2Proof.Machine
end

