-- ==== Sys2Proof/Laws/Ops.lean ====
section
/-! SUPPORT. One lemma per shared operation, saying everything it can do; later proofs cite these. -/

namespace Sys2Proof.Machine

/-! ### The clock check -/

theorem whenClocked_of_clocked {s : State} (h : s.clocked = true) (f : State → State) :
    whenClocked s f = .next (f s) := by
  simp [whenClocked, h]

theorem whenClocked_of_not_clocked {s : State} (h : s.clocked = false) (f : State → State) :
    whenClocked s f = .fault .stuckNotClocked := by
  simp [whenClocked, h]

theorem whenClocked_eq_next_iff {s t : State} {f : State → State} :
    whenClocked s f = .next t ↔ s.clocked = true ∧ t = f s := by
  cases h : s.clocked <;> simp [whenClocked, h, eq_comm]

/-! ### Every transaction is its effect behind the clock check -/

/-- The effect of a transaction on a clocked block. -/
def effectOf : Instr → State → State
  | .wr8Dr x => State.feed x
  | .wr16Dr x => State.feed x
  | .wr32Dr x => State.feed x
  | .rd32Dr => fun s => s.observe s.result
  | .wr32Cr v => State.writeControl v
  | .rd32Cr => fun s => s.observe s.cr.value
  | .wr32Init v => State.writeInit v
  | .rd32Init => fun s => s.observe s.init
  | .wr32Pol v => State.writePol v
  | .rd32Pol => fun s => s.observe s.pol

theorem exec_eq_whenClocked (i : Instr) (s : State) : exec i s = whenClocked s (effectOf i) := by
  cases i <;> rfl

theorem exec_eq_next_iff {i : Instr} {s t : State} :
    exec i s = .next t ↔ s.clocked = true ∧ t = effectOf i s := by
  rw [exec_eq_whenClocked, whenClocked_eq_next_iff]

/-! ### A write to the control register -/

/-- The three ways a `CR` write can go (R105). -/
theorem writeControl_cases (v : Word) (s : State) :
    (s.changesWidthWithoutReset v = true ∧ s.writeControl v = s.report .widthChangeWithoutReset) ∨
    (s.changesWidthWithoutReset v = false ∧ crOperandReset v = true ∧
      s.writeControl v = (s.storeControl v).loadStart) ∨
    (s.changesWidthWithoutReset v = false ∧ crOperandReset v = false ∧ s.writeControl v = s.storeControl v) := by
  cases h : s.changesWidthWithoutReset v <;> cases h' : crOperandReset v <;> simp [State.writeControl, h, h']

/-! ### What happens next -/

/-- Everything a step that answers next can have done, with what made it do so. -/
theorem step_eq_next_cases {s t : State} (h : step s = .next t) :
    (s.pending = [] ∧ s.platform = [] ∧ t = s) ∨
    (∃ e es, s.platform = e :: es ∧ (s.pending = [] ∨ e.after = 0 ∨ s.clocked = false) ∧
      t = ({ s with platform := es } : State).land e.what) ∨
    (∃ r rs, s.pending = r :: rs ∧ s.platform = [] ∧ answer r { s with pending := rs } = .next t) ∨
    (∃ r rs e es, s.pending = r :: rs ∧ s.platform = e :: es ∧ e.after ≠ 0 ∧ s.clocked = true ∧
      answer r { s with pending := rs, platform := e.closer :: es } = .next t) := by
  unfold step State.nextMove at h
  rcases hp : s.pending with _ | ⟨r, rs⟩ <;> rcases hq : s.platform with _ | ⟨e, es⟩ <;>
    simp only [hp, hq] at h
  · exact .inl ⟨rfl, rfl, by simpa using h.symm⟩
  · exact .inr (.inl ⟨e, es, rfl, .inl rfl, by simpa using h.symm⟩)
  · exact .inr (.inr (.inl ⟨r, rs, rfl, rfl, by simpa [hq] using h⟩))
  · by_cases hd : e.after = 0 ∨ s.clocked = false
    · rw [if_pos (by simpa using hd)] at h
      exact .inr (.inl ⟨e, es, rfl, .inr hd, by simpa [hp] using h.symm⟩)
    · rw [if_neg (by simpa using hd)] at h
      simp only [not_or, Bool.not_eq_false] at hd
      exact .inr (.inr (.inr ⟨r, rs, e, es, rfl, rfl, hd.1, hd.2, by simpa using h⟩))

/-- Everything an answered request can have done: a bus fault, or the effect of the transaction it decodes to. -/
theorem answer_eq_next_iff {r : BusRequest} {s t : State} :
    answer r s = .next t ↔ s.clocked = true ∧
      t = (match decodeRequest r with
        | .ok i => effectOf i s
        | .error _ => s.takeBusFault r) := by
  unfold answer
  rcases decodeRequest r with e | i
  · exact whenClocked_eq_next_iff
  · exact exec_eq_next_iff

/-! ### Runs -/

@[simp] theorem execAll_nil (s : State) : execAll [] s = .next s := rfl

theorem execAll_cons_of_next {i : Instr} {is : List Instr} {s t : State} (h : exec i s = .next t) :
    execAll (i :: is) s = execAll is t := by
  simp [execAll, h]

@[simp] theorem runSteps_zero (s : State) : runSteps 0 s = .next s := rfl

theorem runSteps_succ_of_next {n : Nat} {s t : State} (h : step s = .next t) :
    runSteps (n + 1) s = runSteps n t := by
  simp [runSteps, h]

end Sys2Proof.Machine
end

