-- ==== Sys2Proof/Laws/PerInstr.lean ====
section
/-! SUPPORT. Facts about every transaction as syntax, one lemma per constructor. -/

namespace Sys2Proof.Laws.EncodeCanonical

/-- The request a transaction encodes to is canonical: nothing stands above the operand's width, a read carries 0 (R55). -/
def Statement (i : Instr) : Prop := (encode i).canonical = true

theorem wr8Dr (x : Byte) : Statement (.wr8Dr x) := by
  show decide ((x.setWidth 32).toNat < 2 ^ 8) = true
  simp; omega

theorem wr16Dr (x : Halfword) : Statement (.wr16Dr x) := by
  show decide ((x.setWidth 32).toNat < 2 ^ 16) = true
  simp; omega

theorem wr32Dr (x : Word) : Statement (.wr32Dr x) := decide_eq_true x.isLt

theorem rd32Dr : Statement .rd32Dr := by unfold Statement; decide

theorem wr32Cr (v : Word) : Statement (.wr32Cr v) := decide_eq_true v.isLt

theorem rd32Cr : Statement .rd32Cr := by unfold Statement; decide

theorem wr32Init (v : Word) : Statement (.wr32Init v) := decide_eq_true v.isLt

theorem rd32Init : Statement .rd32Init := by unfold Statement; decide

theorem wr32Pol (v : Word) : Statement (.wr32Pol v) := decide_eq_true v.isLt

theorem rd32Pol : Statement .rd32Pol := by unfold Statement; decide

end Sys2Proof.Laws.EncodeCanonical
end

