-- ==== Sys2Proof/Laws/Reflect.lean ====
section
/-! SUPPORT. The bits of the reflection functions. -/

namespace Sys2Proof.Machine

/-- Bit i of a reversal is bit w-1-i of the value (R9). -/
theorem reverse_getLsbD {w : Nat} (x : BitVec w) (i : Nat) :
    x.reverse.getLsbD i = (decide (i < w) && x.getLsbD (w - 1 - i)) := by
  rw [BitVec.getLsbD_reverse, BitVec.getMsbD]

/-- Bit i of a reversed chunk (R70). -/
theorem reversedChunk_getLsbD {k : Nat} (g j : Nat) (d : BitVec k) (i : Nat) :
    (reversedChunk g j d).getLsbD i = (decide (i < g) && d.getLsbD (g * j + (g - 1 - i))) := by
  rw [reversedChunk, reverse_getLsbD, BitVec.getLsbD_extractLsb']
  by_cases h : i < g
  · simp [h, show g - 1 - i < g by omega]
  · simp [h]

@[simp] theorem reverseChunks_zero {k : Nat} (g : Nat) (d : BitVec k) : reverseChunks g d 0 = 0#k := rfl

/-- Bit i of the n lowest chunks, each reversed in place: the mirror bit of its chunk (R70). -/
theorem reverseChunks_getLsbD {k : Nat} (g : Nat) (d : BitVec k) (n : Nat) (h : g * n ≤ k) (i : Nat) :
    (reverseChunks g d n).getLsbD i = (decide (i < g * n) && d.getLsbD (g * (i / g) + (g - 1 - i % g))) := by
  induction n with
  | zero => simp
  | succ n ih =>
    have hg : g * (n + 1) = g * n + g := Nat.mul_succ g n
    rw [reverseChunks, BitVec.getLsbD_or, BitVec.getLsbD_shiftLeft, BitVec.getLsbD_setWidth, reversedChunk_getLsbD,
      ih (by omega), hg]
    by_cases h1 : i < g * n
    · simp [h1, show i < g * n + g by omega]
    · by_cases h2 : i < g * n + g
      · have h3 : i / g = n := Nat.div_eq_of_lt_le (by rw [Nat.mul_comm]; omega) (by rw [Nat.mul_comm, hg]; omega)
        have h4 : i % g = i - g * n := by rw [Nat.mod_def, h3]
        simp [h1, h2, h3, h4, show i < k by omega, show i - g * n < k by omega, show i - g * n < g by omega]
      · simp [h1, h2, show ¬ i - g * n < g by omega]

end Sys2Proof.Machine
end

