-- ==== Sys2Proof/Laws/Run.lean ====
section
/-! SUPPORT. The induction over runs, once: what holds at the start and is kept by every step holds of every state reached. -/

namespace Sys2Proof

theorem Reaches.of_invariant {Inv : Machine.State → Prop} {s t : Machine.State} (h0 : Inv s)
    (hstep : ∀ u v, Inv u → Machine.step u = .next v → Inv v) (h : Reaches s t) : Inv t := by
  induction h with
  | here => exact h0
  | further _ hu ih => exact hstep _ _ ih hu

theorem Reaches.trans {s t u : Machine.State} (h : Reaches s t) (h' : Reaches t u) : Reaches s u := by
  induction h' with
  | here => exact h
  | further _ hu ih => exact .further ih hu

end Sys2Proof
end

