-- ==== Sys2Proof/Tests/Slice0.lean ====
section
/-! SUPPORT. The model's own tests. Expected values are those of spec/95_test_vectors.md (row ids F, I, O, U, K, Z, T) or of
a rule's own example; the witnesses at the end meet the hypotheses of the statements. -/

namespace Sys2Proof.Tests

open Sys2Proof.Machine

/-- The next state of an outcome, so that outcomes can be compared. -/
def nextState : Host.Outcome State Fault Refusal → Option State
  | .next t => some t
  | .fault _ => none
  | .refused _ => none

/-- A small state: reset with the given registers. -/
def small (polySize revIn : BitVec 2) (revOut : BitVec 1) (init pol crc : Word) : State :=
  { State.reset with cr := ⟨polySize, revIn, revOut⟩, init := init, pol := pol, crc := crc }

/-! ### Well-formedness -/

/-- R59: an immediate of more than k bits is refused. -/
theorem test_wellFormed_refuses_wide_immediate : (AsmLine.wr .byte .dr 256).wellFormed = false := by decide

/-- R34: a width the register is not written at is refused. -/
theorem test_wellFormed_refuses_narrow_control_write : (AsmLine.wr .byte .cr 1).wellFormed = false := by decide

/-- R34: a narrow read is refused. -/
theorem test_wellFormed_refuses_narrow_read : (AsmLine.rd .halfword .dr).wellFormed = false := by decide

/-- R55: a byte write that carries a ninth bit is not in canonical form. -/
theorem test_canonical_refuses_bits_above_the_width : (BusRequest.data 0x1000#13 0x142#32).canonical = false := by decide

/-- A read that carries data is not in canonical form. -/
theorem test_canonical_refuses_read_data : (BusRequest.data 0x0800#13 1#32).canonical = false := by decide

theorem test_wellFormed_accepts : (Instr.wr8Dr 0x42#8).wellFormed = true ∧ (AsmLine.wr .byte .dr 255).wellFormed = true := by
  decide

/-! ### Decoding: R56's rows, each descriptor written out bit by bit as WR SZ OFF -/

theorem test_decode_wr8Dr : decode 0b1_00_0000000000#13 0xFFFFFF42#32 = .ok (.wr8Dr 0x42#8) := by decide
theorem test_decode_wr16Dr : decode 0b1_01_0000000000#13 0xFFFF3132#32 = .ok (.wr16Dr 0x3132#16) := by decide
theorem test_decode_wr32Dr : decode 0b1_10_0000000000#13 0x31323334#32 = .ok (.wr32Dr 0x31323334#32) := by decide
theorem test_decode_rd32Dr : decode 0b0_10_0000000000#13 0#32 = .ok .rd32Dr := by decide
theorem test_decode_wr32Cr : decode 0b1_10_0000001000#13 0x11#32 = .ok (.wr32Cr 0x11#32) := by decide
theorem test_decode_rd32Cr : decode 0b0_10_0000001000#13 0#32 = .ok .rd32Cr := by decide
theorem test_decode_wr32Init : decode 0b1_10_0000010000#13 0x7F#32 = .ok (.wr32Init 0x7F#32) := by decide
theorem test_decode_rd32Init : decode 0b0_10_0000010000#13 0#32 = .ok .rd32Init := by decide
theorem test_decode_wr32Pol : decode 0b1_10_0000010100#13 7#32 = .ok (.wr32Pol 7#32) := by decide
theorem test_decode_rd32Pol : decode 0b0_10_0000010100#13 0#32 = .ok .rd32Pol := by decide

/-- T8, T9: a 16-bit read of `DR`, a byte write of `CR`. -/
theorem test_decode_rejects_widths :
    decode 0x0400#13 0#32 = .error .widthNotMapped ∧ decode 0x1008#13 1#32 = .error .widthNotMapped := by decide

/-- T10, T11, T12, T13: unmapped offsets, a byte lane, `SZ` = 11. -/
theorem test_decode_rejects_offsets_and_size :
    decode 0x1804#13 0x12#32 = .error .unmappedOffset ∧ decode 0x080C#13 0#32 = .error .unmappedOffset ∧
    decode 0x1001#13 0x12#32 = .error .unmappedOffset ∧ decode 0x1C00#13 0#32 = .error .reservedSize := by decide

theorem test_encode_is_the_table_row : encode (.wr32Cr 0xB9#32) = .data 0x1808#13 0xB9#32 ∧
    encode .rd32Pol = .data 0x0814#13 0#32 := by decide

theorem test_decodeTableWord : decodeTableWord 16 0x1400 = some (.wr16Dr 0#16) ∧ decodeTableWord 16 0x0400 = none ∧
    decodeTableWord 16 0x3000 = none := by decide

/-! ### Functions: rows F, I, O, U, K, Z -/

theorem test_reflect_F4_F8_F13 : reflectByte 0x1A#8 = 0x58#8 ∧ reflectHalfword 0x1A2B#16 = 0xD458#16 ∧
    reflectWord 0x1A2B3C4D#32 = 0xB23CD458#32 := by decide +kernel

theorem test_reflectIn_I3 : reflectIn .byByte 0x1A2B3C4D#32 = 0x58D43CB2#32 ∧
    reflectIn .byHalfword 0x1A2B3C4D#32 = 0xD458B23C#32 ∧ reflectIn .byWord 0x1A2B3C4D#32 = 0xB23CD458#32 := by
  decide +kernel

theorem test_reflectIn_I1_I2 : reflectIn .byWord 0x1A#8 = 0x58#8 ∧ reflectIn .byByte 0x1A2B#16 = 0x58D4#16 ∧
    reflectIn .byWord 0x1A2B#16 = 0xD458#16 := by decide +kernel

theorem test_reflectOut_O4_O6_O7 : reflectOut .w7 0x65#32 = 0x53#32 ∧ reflectOut .w7 0x80#32 = 0#32 ∧
    reflectOut .w7 0xFF#32 = 0x7F#32 := by decide

theorem test_reflectOut_O8_O10_O12 : reflectOut .w8 0xC9#32 = 0x93#32 ∧ reflectOut .w16 0x31C3#32 = 0xC38C#32 ∧
    reflectOut .w32 0x0376E6E7#32 = 0xE7676EC0#32 := by decide +kernel

theorem test_update_U1_U6_U7 : update 0#32 .w8 7#32 0x42#8 = 0xC9#32 ∧ update 0#32 .w7 9#32 0x80#8 = 0x41#32 ∧
    update 0x40#32 .w7 9#32 0#8 = 0x41#32 := by decide +kernel

theorem test_update_U10_U14_U15 : update 0xFFFFFFFF#32 .w32 0x04C11DB7#32 0#32 = 0xC704DD7B#32 ∧
    update 0#32 .w7 9#32 0x31323334#32 = 0x3A#32 ∧ update 0x5A#32 .w8 0#32 0xA5#8 = 0#32 := by decide +kernel

/-- K8, CRC-7/ROHC of "123456789". -/
theorem test_swCrc_K8 : swCrc ⟨.byByte, true, 0x7F#32, .poly7 0x4F#7⟩
    [.data8 0x31#8, .data8 0x32#8, .data8 0x33#8, .data8 0x34#8, .data8 0x35#8, .data8 0x36#8, .data8 0x37#8,
      .data8 0x38#8, .data8 0x39#8] = 0x53#32 := by decide +kernel

/-- P3: CRC-32 by words with word reversal, and a last byte. -/
theorem test_swCrc_P3 : swCrc ⟨.byWord, true, 0xFFFFFFFF#32, .poly32 0x04C11DB7#32⟩
    [.data32 0x34333231#32, .data32 0x38373635#32, .data8 0x39#8] = 0x340BC6D9#32 := by decide +kernel

theorem test_swCrc_Z4_Z7 : swCrc ⟨.none, true, 0x12345678#32, .poly16 1#16⟩ [] = 0x1E6A#32 ∧
    swCrc ⟨.none, true, 0x12345678#32, .poly7 1#7⟩ [] = 0x0F#32 := by decide +kernel

/-- R61's three examples. -/
theorem test_controlValue : controlValue ⟨.none, false, 0#32, .poly8 7#8⟩ = 0x11#32 ∧
    controlValue ⟨.byWord, true, 0#32, .poly32 7#32⟩ = 0xE1#32 ∧
    controlValue ⟨.byByte, true, 0#32, .poly7 7#7⟩ = 0xB9#32 := by decide

theorem test_assemble : assemble (.wr .byte .dr 0x42) = some (.wr8Dr 0x42#8) ∧ assemble (.wr .byte .dr 256) = none := by
  decide

/-- R60's expansion of `crc.begin`. -/
theorem test_expand_begin : PseudoOp.expand (.crcBegin 0#32 7#32 0x10#32) =
    [.wr32Init 0#32, .wr32Pol 7#32, .wr32Cr 0x11#32] := by decide

/-! ### Transactions, one step each -/

/-- R101's example. -/
theorem test_wr8Dr : (nextState (exec (.wr8Dr 0x42#8) (small 2#2 0#2 0#1 0#32 7#32 0#32))).map (·.crc) = some 0xC9#32 := by
  decide +kernel

/-- T6's second byte: ByByte reflects 0x01 to 0x80. -/
theorem test_wr8Dr_reflected :
    (nextState (exec (.wr8Dr 0x01#8) (small 2#2 1#2 0#1 0#32 7#32 7#32))).map (·.crc) = some 0x9C#32 := by
  decide +kernel

/-- R102's example. -/
theorem test_wr16Dr :
    (nextState (exec (.wr16Dr 0x3132#16) (small 1#2 0#2 0#1 0#32 0x1021#32 0#32))).map (·.crc) = some 0x20B5#32 := by
  decide +kernel

/-- R103's example, at reset. -/
theorem test_wr32Dr : (nextState (exec (.wr32Dr 0#32) State.reset)).map (·.crc) = some 0xC704DD7B#32 := by
  decide +kernel

/-- R104's example. -/
theorem test_rd32Dr :
    (nextState (exec .rd32Dr (small 2#2 0#2 1#1 0#32 7#32 0xC9#32))).map (·.reads) = some [0x93#32] := by decide +kernel

/-- P4's read: 7 bits, output reflection. -/
theorem test_rd32Dr_seven_bits :
    (nextState (exec .rd32Dr (small 3#2 1#2 1#1 0x7F#32 0x4F#32 0x65#32))).map (·.reads) = some [0x53#32] := by
  decide +kernel

/-- R105's example: the reset uses the width the same write selects. -/
theorem test_wr32Cr_reset : (nextState (exec (.wr32Cr 0x09#32) (small 0#2 0#2 0#1 0x12345678#32 7#32 0#32))).map
    (fun t => (t.cr.value, t.crc)) = some (0x08#32, 0x5678#32) := by decide +kernel

/-- T7: the refused width change. -/
theorem test_wr32Cr_refused : (nextState (exec (.wr32Cr 0x08#32) State.reset)).map
    (fun t => (t.cr.value, t.crc, t.refused, t.faulted)) = some (0#32, 0xFFFFFFFF#32, true, false) := by decide +kernel

/-- T3: reserved bits and `RESET` read 0. -/
theorem test_rd32Cr : (nextState (exec .rd32Cr (small 3#2 3#2 1#1 0#32 7#32 0#32))).map (·.reads) = some [0xF8#32] := by
  decide +kernel

/-- T15: an `INIT` write leaves `crc`. -/
theorem test_wr32Init : (nextState (exec (.wr32Init 0xAAAAAAAA#32) State.reset)).map (fun t => (t.init, t.crc)) =
    some (0xAAAAAAAA#32, 0xFFFFFFFF#32) := by decide

/-- T1. -/
theorem test_rd32Init : (nextState (exec .rd32Init State.reset)).map (·.reads) = some [0xFFFFFFFF#32] := by decide

/-- R109: all 32 bits are stored at W = 8. -/
theorem test_wr32Pol : (nextState (exec (.wr32Pol 0x107#32) (small 2#2 0#2 0#1 0#32 7#32 0#32))).map (·.pol) =
    some 0x107#32 := by decide

/-- T1. -/
theorem test_rd32Pol : (nextState (exec .rd32Pol State.reset)).map (·.reads) = some [0x04C11DB7#32] := by decide

/-! ### The step -/

/-- T8: the fault is recorded, nothing is returned. -/
theorem test_step_busFault : (nextState (step { State.reset with pending := [.data 0x0400#13 0#32] })).map
    (fun t => (t.faulted, t.reads, t.reports)) = some (true, [], [.busFault 0x0400#13 none]) := by decide +kernel

/-- T10: a write's bus value is recorded. -/
theorem test_step_busFault_write : (nextState (step { State.reset with pending := [.data 0x1804#13 0x12#32] })).map
    (·.reports) = some [.busFault 0x1804#13 (some 0x12#32)] := by decide +kernel

/-- T14: not clocked, no step. -/
theorem test_step_stuck : nextState (step { State.reset with clocked := false, pending := [.data 0x0800#13 0#32] }) = none := by
  decide

theorem test_step_runs_the_table_word :
    nextState (step (State.reset.withFetchWord 16 0x1000)) = nextState (exec (.wr8Dr 0#8) State.reset) := by decide +kernel

/-- R10, R29: the host's byte write at the default base. -/
theorem test_requestOfAccess : requestOfAccess Config.crcBaseDefault ⟨.write, 0x40023000#32, .byte, 0xABCDEF42#32⟩ =
    some (.data 0x1000#13 0x42#32) := by decide +kernel

/-- The last address of the window, and the first after it. -/
theorem test_requestOfAccess_edges :
    requestOfAccess Config.crcBaseDefault ⟨.read, 0x400233FF#32, .word, 0#32⟩ = some (.data 0x0BFF#13 0#32) ∧
    requestOfAccess Config.crcBaseDefault ⟨.read, 0x40023400#32, .word, 0#32⟩ = none := by decide +kernel

theorem test_issue_joins_the_queue : (State.issue Config.crcBaseDefault ⟨.read, 0x40023000#32, .word, 0#32⟩
    State.reset).pending = [.data 0x0800#13 0#32] := by decide +kernel

/-! ### Witnesses: each statement's hypotheses are met together -/

theorem test_witness_AnswerFollowsTheDescriptorTable : State.reset.clocked = true ∧
    [0x1000#13, 0x1400#13, 0x1800#13, 0x0800#13, 0x1808#13, 0x0808#13, 0x1810#13, 0x0810#13, 0x1814#13, 0x0814#13,
      0x1C00#13].Nodup := by decide

theorem test_witness_DecodeOfEncodeIsTheTransaction : (Instr.wr16Dr 0xFFFF#16).wellFormed = true := by decide

theorem test_witness_EncodeOfDecodeIsTheRequest : (BusRequest.data 0x1000#13 0xFF#32).canonical = true ∧
    decodeRequest (.data 0x1000#13 0xFF#32) = .ok (.wr8Dr 0xFF#8) := by decide

theorem test_witness_BusBitsAboveTheWidthAreNoOperand :
    BitVec.extractLsb' 0 8 0x1FF#32 = BitVec.extractLsb' 0 8 0xFF#32 ∧
    BitVec.extractLsb' 0 16 0x1FFFF#32 = BitVec.extractLsb' 0 16 0xFFFF#32 ∧
    BitVec.getLsbD 0x0FFF#13 12 = false := by decide

theorem test_witness_WindowAccessBecomesItsRequest : (0xFFFFFC00#32).toNat + 0x400 ≤ 2 ^ 32 ∧
    (0xFFFFFBFF#32).toNat < (0xFFFFFC00#32).toNat ∧
    Config.crcBaseDefault.toNat + 0x400 ≤ (0x40023400#32).toNat ∧ Config.crcBaseDefault.toNat + 0x400 ≤ 2 ^ 32 := by decide

theorem test_witness_StepRunsTheDecodedTransaction :
    let s : State := { State.reset with pending := [.data 0x0800#13 0#32] }
    let u : State := { s with platform := [⟨1, .systemReset⟩] }
    decodeRequest (.data 0x0800#13 0#32) = .ok .rd32Dr ∧ Instr.rd32Dr.wellFormed = true ∧ s.platform = [] ∧
      u.platform = [⟨1, .systemReset⟩] ∧ (1 : Nat) ≠ 0 ∧ u.clocked = true := by decide

theorem test_witness_FetchFromTheWindowFaults :
    let s : State := { State.reset with pending := [.fetch 0x3FF#10] }
    s.clocked = true ∧ s.platform = [] ∧ s.pending = [.fetch 0x3FF#10] := by decide

theorem test_witness_UnclockedTransactionIsStuck :
    let s : State := { State.reset with clocked := false, pending := [.data 0x0800#13 0#32] }
    s.clocked = false ∧ s.pending = [.data 0x0800#13 0#32] ∧ s.platform = [] := by decide

theorem test_witness_OutcomePriority : State.reset.clocked = true ∧
    decodeRequest (.data 0x1C00#13 0#32) = .error .reservedSize ∧
    decodeRequest (.data 0x1808#13 0x08#32) = .ok (.wr32Cr 0x08#32) ∧ BitVec.getLsbD 0x08#32 0 = false ∧
    BitVec.extractLsb' 3 2 0x08#32 ≠ State.reset.cr.polySize ∧
    decodeRequest (.data 0x1808#13 0x80#32) = .ok (.wr32Cr 0x80#32) ∧
    BitVec.extractLsb' 3 2 0x80#32 = State.reset.cr.polySize := by decide

theorem test_witness_BlockWaitsForTransactions : State.reset.pending = [] ∧ State.reset.platform = [] := by decide

theorem test_witness_ClockLossKeepsTheRegisters :
    let s : State := { State.reset with platform := [⟨0, .clock false⟩, ⟨3, .clock true⟩] }
    s.clocked = true ∧ s.platform = [⟨0, .clock false⟩, ⟨3, .clock true⟩] := by decide

theorem test_witness_SystemResetLandsBetweenTransactions :
    ({ small 3#2 3#2 1#1 1#32 2#32 3#32 with platform := [⟨0, .systemReset⟩] } : State).platform =
      [⟨0, .systemReset⟩] := by decide

theorem test_witness_ReflectionsReverseBitOrder : 0 < 8 ∧ 7 < 8 ∧ 15 < 16 ∧ 31 < 32 := by decide

theorem test_witness_OutputReflectionTwice : (0x7F#32).toNat < 2 ^ 7 ∧ (0xFF#32).toNat < 2 ^ 8 ∧
    (0xFFFF#32).toNat < 2 ^ 16 := by decide

theorem test_witness_UpdateUsesAndGivesLowBitsOnly : ∀ i, i < widthBits .w7 →
    (0xFFFFFF81#32).getLsbD i = (0x01#32).getLsbD i ∧ (0x89#32).getLsbD i = (0x09#32).getLsbD i := by decide

theorem test_witness_DataPortWritesDigestTheValue : (small 3#2 3#2 1#1 1#32 2#32 3#32).clocked = true := by decide

theorem test_witness_ResultReadReturnsTheAccumulatorView : (small 3#2 0#2 0#1 0#32 9#32 0#32).clocked = true ∧
    (small 3#2 0#2 0#1 0#32 9#32 0#32).cr.revOut = 0#1 ∧ (small 3#2 0#2 1#1 0#32 9#32 0#32).cr.revOut = 1#1 ∧
    widthBits (widthOfCode 3#2) ≤ 7 := by decide

theorem test_witness_ControlWriteStoresAndLoads : State.reset.clocked = true ∧ BitVec.getLsbD 0x09#32 0 = true ∧
    BitVec.getLsbD 0xE0#32 0 = false ∧ BitVec.extractLsb' 3 2 0xE0#32 = State.reset.cr.polySize ∧
    BitVec.extractLsb' 3 2 0x18#32 ≠ State.reset.cr.polySize := by decide

theorem test_witness_ControlReadReturnsTheFields : (small 3#2 3#2 1#1 0#32 0#32 0#32).clocked = true := by decide

theorem test_witness_ControlReadsBackWithoutResetAndReservedBits : State.reset.clocked = true ∧
    BitVec.getLsbD 0xFFFFFFFF#32 0 = true ∧ BitVec.extractLsb' 3 2 0xFFFFFFE6#32 = State.reset.cr.polySize := by decide

theorem test_witness_InitReadReturnsTheLastWrittenValue : (small 3#2 0#2 0#1 0x12345678#32 0#32 0#32).clocked = true := by
  decide

theorem test_witness_InitWriteActsOnlyAtReset : State.reset.clocked = true ∧ Instr.wr32Cr 0xE0#32 ≠ .rd32Init ∧
    (∀ u, Instr.wr32Cr 0xE0#32 ≠ .wr32Init u) ∧ (∀ u, Instr.wr32Cr 0xE0#32 = .wr32Cr u → u.getLsbD 0 = false) ∧
    BitVec.getLsbD 0x19#32 0 = true := by
  refine ⟨by decide, by decide, fun u h => (by cases h), fun u h => ?_, by decide⟩
  cases h
  decide

theorem test_witness_PolWriteActsOnLaterDataWrites : (small 2#2 0#2 0#1 0#32 0x107#32 0#32).clocked = true ∧
    (∀ u, Instr.wr32Init 1#32 ≠ .wr32Pol u) ∧
    exec (.wr32Init 1#32) (small 2#2 0#2 0#1 0#32 0x107#32 0#32) = .next (small 2#2 0#2 0#1 1#32 0x107#32 0#32) :=
  ⟨by decide, fun u h => (by cases h), rfl⟩

theorem test_witness_EveryTransactionCompletes : State.reset.clocked = true ∧
    (∀ v, Instr.wr32Cr 0xE0#32 = .wr32Cr v → v.getLsbD 0 = false → v.extractLsb' 3 2 = State.reset.cr.polySize) := by
  refine ⟨by decide, fun v h _ => ?_⟩
  cases h
  decide

theorem test_witness_TransactionFrame :
    exec (.wr32Init 1#32) State.reset = .next { State.reset with init := 1#32 } := rfl

theorem test_witness_StateChangesOnlyByWriteOrReset :
    step { State.reset with pending := [.data 0x1810#13 1#32] } = .next { State.reset with init := 1#32 } ∧
    step { small 1#2 0#2 0#1 0#32 0#32 0#32 with platform := [⟨0, .systemReset⟩] } = .next State.reset := ⟨rfl, rfl⟩

theorem test_witness_ReadsHaveNoSideEffects : State.reset.clocked = true ∧ Instr.rd32Cr = .rd32Cr := by decide

theorem test_witness_WriteIdempotence : State.reset.clocked = true ∧ BitVec.getLsbD 0x19#32 0 = true := by decide

theorem test_witness_InitAndPolWritesCommute : State.reset.clocked = true := by decide

theorem test_witness_ConfigurationChangeActsAtTheNextUse : State.reset.clocked = true ∧
    BitVec.getLsbD 0xA0#32 0 = false ∧ BitVec.extractLsb' 3 2 0xA0#32 = State.reset.cr.polySize := by decide

theorem test_witness_MarksAreNeverCleared :
    let s : State := { State.reset with faulted := true, refused := true, pending := [.data 0x1814#13 7#32] }
    step s = .next { s with pol := 7#32, pending := [] } ∧ s.faulted = true ∧ s.refused = true := ⟨rfl, rfl, rfl⟩

theorem test_witness_ObservedReadsOnlyGrow : step { State.reset with pending := [.data 0x0814#13 0#32] } =
    .next { State.reset with reads := [0x04C11DB7#32] } := rfl

theorem test_witness_StepKeepsAccumulatorInWidth :
    let s : State := { small 3#2 0#2 0#1 0#32 9#32 0x7F#32 with pending := [.data 0x1810#13 1#32] }
    s.accumulatorFits ∧ step s = .next { s with init := 1#32, pending := [] } := ⟨by decide, rfl⟩

theorem test_witness_ReachableAccumulatorFits :
    ∃ t, Reaches { State.reset with pending := [.data 0x1808#13 0x19#32], platform := [] } t ∧
      widthBits t.width ≤ 7 ∧ t.crc = 0x7F#32 :=
  ⟨{ State.reset with cr := ⟨3#2, 0#2, 0#1⟩, crc := 0x7F#32 }, .further .here rfl, by decide, by decide⟩

theorem test_witness_StepKeepsMarksInAgreement :
    let s : State := { State.reset with pending := [.data 0x0400#13 0#32] }
    s.marksMatchReports ∧
      step s = .next { State.reset with faulted := true, reports := [.busFault 0x0400#13 none] } := ⟨by decide, rfl⟩

theorem test_witness_ControlValueSelectsTheConfiguration : (small 3#2 3#2 1#1 0#32 0#32 0#32).clocked = true := by decide

theorem test_witness_HardwareResultEqualsReference :
    let config : CrcConfig := ⟨.none, false, 0#32, .poly8 7#8⟩
    let s : State := { State.reset with pending := (adapterSequence config [.data8 0x42#8]).map encode ++ [] }
    s.clocked = true ∧ s.platform = [] ∧ s.pending = (adapterSequence config [.data8 0x42#8]).map encode ++ [] := by decide

theorem test_witness_AdapterResultIgnoresTheStateBefore : State.reset.clocked = true ∧
    (small 3#2 3#2 1#1 1#32 2#32 3#32).clocked = true := by decide

theorem test_witness_EmptyCalculationReturnsTheInitialValue : WidthClass.w7 = polynomialWidth (.poly7 9#7) ∧
    State.reset.clocked = true := by decide

theorem test_witness_WidthSplitting :
    (CrcConfig.mk .byByte true 0#32 (.poly8 7#8)).inputReflection = .byByte ∧
    (CrcConfig.mk .none true 0#32 (.poly8 7#8)).inputReflection = .none ∧
    (CrcConfig.mk .byHalfword true 0#32 (.poly8 7#8)).inputReflection = .byHalfword := by decide

theorem test_witness_ResultIsThePolynomialRemainder : State.reset.clocked = true ∧
    (CrcConfig.mk .none false 0x7F#32 (.poly7 9#7)).inputReflection = .none ∧
    (CrcConfig.mk .none false 0x7F#32 (.poly7 9#7)).outputReflect = false := by decide

end Sys2Proof.Tests
end

section
/-! SUPPORT. Proofs of the statements of 00_scope.md: the window (O7), the marks (O41), the observed reads (O42). -/

namespace Sys2Proof.Machine

/-! ### The host's access to the window -/

/-- The request an access makes at an offset of the window (R10, R29, R31). -/
def requestAt (off : BitVec 10) (a : HostAccess) : BusRequest :=
  match a.kind with
  | .read => .data (descriptorOf false a.size off) 0#32
  | .write => .data (descriptorOf true a.size off) (busValue a.size a.data)
  | .fetch => .fetch off

/-- No address of a window that ends below 2^32 wraps. -/
theorem windowAddress_toNat {base : Word} (h : base.toNat + 0x400 ≤ 2 ^ 32) (off : BitVec 10) :
    (base + off.setWidth 32).toNat = base.toNat + off.toNat := by
  have hoff : off.toNat < 2 ^ 10 := off.isLt
  rw [BitVec.toNat_add, BitVec.toNat_setWidth_of_le (by omega), Nat.mod_eq_of_lt (by omega)]

theorem requestOfAccess_inside {base : Word} (h : base.toNat + 0x400 ≤ 2 ^ 32) (off : BitVec 10) {a : HostAccess}
    (ha : a.addr = base + off.setWidth 32) : requestOfAccess base a = some (requestAt off a) := by
  have haddr : a.addr.toNat = base.toNat + off.toNat := by rw [ha, windowAddress_toNat h]
  have hin : base.toNat ≤ a.addr.toNat ∧ a.addr.toNat < base.toNat + Config.windowBytes := by
    have hoff : off.toNat < 0x400 := off.isLt
    rw [haddr, Config.windowBytes]
    omega
  have hsub : BitVec.ofNat 10 (a.addr.toNat - base.toNat) = off := by
    rw [haddr, Nat.add_sub_cancel_left, BitVec.ofNat_toNat, BitVec.setWidth_eq]
  rw [requestOfAccess, if_pos hin, hsub, requestAt]
  cases a.kind <;> rfl

theorem requestOfAccess_outside {base : Word} {a : HostAccess}
    (h : a.addr.toNat < base.toNat ∨ base.toNat + 0x400 ≤ a.addr.toNat) : requestOfAccess base a = none := by
  rw [requestOfAccess, if_neg]
  rw [Config.windowBytes]
  omega

/-! ### What an operation does to the marks and to the observed reads -/

@[simp] theorem State.land_faulted (e : PlatformInput) (s : State) : (s.land e).faulted = s.faulted := by
  cases e <;> rfl

@[simp] theorem State.land_refused (e : PlatformInput) (s : State) : (s.land e).refused = s.refused := by
  cases e <;> rfl

@[simp] theorem State.land_reads (e : PlatformInput) (s : State) : (s.land e).reads = s.reads := by
  cases e <;> rfl

@[simp] theorem State.takeBusFault_faulted (r : BusRequest) (s : State) : (s.takeBusFault r).faulted = true := by
  cases r <;> simp [State.takeBusFault, faultReport, Report.isFault]

@[simp] theorem State.takeBusFault_refused (r : BusRequest) (s : State) :
    (s.takeBusFault r).refused = s.refused := by
  cases r <;> simp [State.takeBusFault, faultReport, Report.isRefusal]

@[simp] theorem State.takeBusFault_reads (r : BusRequest) (s : State) : (s.takeBusFault r).reads = s.reads := rfl

@[simp] theorem State.writeControl_faulted (v : Word) (s : State) : (s.writeControl v).faulted = s.faulted := by
  obtain ⟨-, h⟩ | ⟨-, -, h⟩ | ⟨-, -, h⟩ := writeControl_cases v s <;> simp [h, Report.isFault]

@[simp] theorem State.writeControl_refused (v : Word) (s : State) :
    (s.writeControl v).refused = (s.refused || s.changesWidthWithoutReset v) := by
  obtain ⟨hw, h⟩ | ⟨hw, -, h⟩ | ⟨hw, -, h⟩ := writeControl_cases v s <;> simp [h, hw, Report.isRefusal]

@[simp] theorem State.writeControl_reads (v : Word) (s : State) : (s.writeControl v).reads = s.reads := by
  obtain ⟨-, h⟩ | ⟨-, -, h⟩ | ⟨-, -, h⟩ := writeControl_cases v s <;> simp [h]

/-! ### What a transaction does to them -/

@[simp] theorem effectOf_faulted (i : Instr) (s : State) : (effectOf i s).faulted = s.faulted := by
  cases i <;> simp [effectOf]

theorem effectOf_keeps_refused (i : Instr) {s : State} (h : s.refused = true) : (effectOf i s).refused = true := by
  cases i <;> simp [effectOf, h]

/-- Only the four reads return a value, and each returns one (R59). -/
theorem effectOf_reads_cases (i : Instr) (s : State) :
    (effectOf i s).reads = s.reads ∨
    (∃ v, (effectOf i s).reads = s.reads ++ [v]) ∧ (i = .rd32Dr ∨ i = .rd32Cr ∨ i = .rd32Init ∨ i = .rd32Pol) := by
  cases i <;> simp [effectOf]

/-! ### What an answered request does to them -/

/-- An answer is a bus fault or the effect of the transaction the request decodes to. -/
theorem answer_eq_next_cases {r : BusRequest} {s t : State} (h : answer r s = .next t) :
    (∃ i, decodeRequest r = .ok i ∧ t = effectOf i s) ∨ (∃ e, decodeRequest r = .error e ∧ t = s.takeBusFault r) := by
  obtain ⟨-, ht⟩ := answer_eq_next_iff.1 h
  rcases hd : decodeRequest r with e | i <;> rw [hd] at ht
  · exact .inr ⟨e, rfl, ht⟩
  · exact .inl ⟨i, rfl, ht⟩

theorem answer_keeps_marks {r : BusRequest} {s t : State} (h : answer r s = .next t) :
    (s.faulted = true → t.faulted = true) ∧ (s.refused = true → t.refused = true) := by
  obtain ⟨i, -, rfl⟩ | ⟨e, -, rfl⟩ := answer_eq_next_cases h
  · exact ⟨(effectOf_faulted i s).trans, effectOf_keeps_refused i⟩
  · exact ⟨fun _ => State.takeBusFault_faulted r s, (State.takeBusFault_refused r s).trans⟩

theorem answer_reads_cases {r : BusRequest} {s t : State} (h : answer r s = .next t) :
    t.reads = s.reads ∨
    ∃ v i, t.reads = s.reads ++ [v] ∧ decodeRequest r = .ok i ∧
      (i = .rd32Dr ∨ i = .rd32Cr ∨ i = .rd32Init ∨ i = .rd32Pol) := by
  obtain ⟨i, hd, rfl⟩ | ⟨e, -, rfl⟩ := answer_eq_next_cases h
  · obtain hkept | ⟨⟨v, hv⟩, hread⟩ := effectOf_reads_cases i s
    · exact .inl hkept
    · exact .inr ⟨v, i, hv, hd, hread⟩
  · exact .inl (State.takeBusFault_reads r s)

/-! ### What a step does -/

/-- A step waits, lands a platform input, or answers the first request; before it acts it changes the two queues alone.
`step_eq_next_cases` says besides which of these is due and what the platform's queue then holds. -/
theorem step_waits_lands_or_answers {s t : State} (h : step s = .next t) :
    t = s ∨
    (∃ e es, t = ({ s with platform := es } : State).land e) ∨
    (∃ r rs es, s.pending = r :: rs ∧ answer r { s with pending := rs, platform := es } = .next t) := by
  obtain ⟨-, -, ht⟩ | ⟨e, es, -, -, ht⟩ | ⟨r, rs, hp, hq, ha⟩ | ⟨r, rs, e, es, hp, -, -, -, ha⟩ :=
    step_eq_next_cases h
  · exact .inl ht
  · exact .inr (.inl ⟨e.what, es, ht⟩)
  · exact .inr (.inr ⟨r, rs, s.platform, hp, ha⟩)
  · exact .inr (.inr ⟨r, rs, e.closer :: es, hp, ha⟩)

end Sys2Proof.Machine

namespace Sys2Proof.Proofs

open Sys2Proof.Machine

/-- Settles O7: an address of the window is `base` plus its offset without a wrap, so the model finds the offset again. -/
theorem windowAccessBecomesItsRequest : Obligations.WindowAccessBecomesItsRequest := by
  unfold Obligations.WindowAccessBecomesItsRequest
  intro base data size off h
  refine ⟨fun v hv => ?write, ?read, ?fetch, fun a ha => requestOfAccess_outside ha⟩
  case write =>
    rw [requestOfAccess_inside h off rfl, hv]
    cases size <;> rfl
  case read => exact requestOfAccess_inside h off rfl
  case fetch => exact requestOfAccess_inside h off rfl

/-- Settles O41: waiting and landing leave the marks alone, and an answer sets them or leaves them. -/
theorem marksAreNeverCleared : Obligations.MarksAreNeverCleared := by
  unfold Obligations.MarksAreNeverCleared
  intro s t h
  obtain rfl | ⟨e, es, rfl⟩ | ⟨r, rs, es, -, ha⟩ := step_waits_lands_or_answers h
  · exact ⟨id, id⟩
  · exact ⟨fun hf => by rw [State.land_faulted, hf], fun hr => by rw [State.land_refused, hr]⟩
  · have hmarks := answer_keeps_marks ha
    exact hmarks

/-- Settles O42: waiting and landing return nothing, and an answer returns a value only for a request that decodes to a
read. -/
theorem observedReadsOnlyGrow : Obligations.ObservedReadsOnlyGrow := by
  unfold Obligations.ObservedReadsOnlyGrow
  intro s t h
  obtain rfl | ⟨e, es, rfl⟩ | ⟨r, rs, es, hp, ha⟩ := step_waits_lands_or_answers h
  · exact .inl rfl
  · exact .inl (State.land_reads e _)
  · obtain hkept | ⟨v, i, hv, hd, hread⟩ := answer_reads_cases ha
    · exact .inl hkept
    · exact .inr ⟨v, r, rs, i, hv, hp, hd, hread⟩

end Sys2Proof.Proofs
end

section
/-! SUPPORT. Proofs of the statements of 10_state.md: the update within its width (O24), the frame (O35, O36), and the two
invariants (O43 to O46). -/

namespace Sys2Proof.Machine

/-! ### The low W bits -/

theorem mask_toNat (W : WidthClass) : (mask W).toNat = 2 ^ widthBits W - 1 := by cases W <;> rfl

/-- Values that agree on the bits below W have the same low W bits. -/
theorem and_mask_congr {W : WidthClass} {c c' : Word} (h : ∀ i, i < widthBits W → c'.getLsbD i = c.getLsbD i) :
    c' &&& mask W = c &&& mask W := by
  refine BitVec.eq_of_getLsbD_eq fun i _ => ?_
  rw [BitVec.getLsbD_and, BitVec.getLsbD_and, mask_getLsbD]
  by_cases hi : i < widthBits W
  · rw [h i hi]
  · simp [hi]

/-- A value that is its own low W bits lies below 2^W. -/
theorem toNat_lt_of_and_mask {W : WidthClass} {c : Word} (h : c &&& mask W = c) : c.toNat < 2 ^ widthBits W := by
  rw [← h, BitVec.toNat_and, mask_toNat, Nat.and_two_pow_sub_one_eq_mod]
  exact Nat.mod_lt _ (Nat.two_pow_pos _)

/-- A value that is its own low W bits has no bit from W up. -/
theorem getLsbD_of_and_mask {W : WidthClass} {c : Word} (h : c &&& mask W = c) {i : Nat} (hi : widthBits W ≤ i) :
    c.getLsbD i = false := by
  rw [← h, BitVec.getLsbD_and, mask_getLsbD, decide_eq_false (Nat.not_lt.2 hi), Bool.and_false]

/-- Nothing stands above the width exactly if the value is its own low W bits (R26). -/
theorem and_not_mask_eq_zero_iff {W : WidthClass} {c : Word} : c &&& ~~~mask W = 0#32 ↔ c &&& mask W = c := by
  have hsplit : (c &&& mask W) ||| (c &&& ~~~mask W) = c := by
    ext i hi
    cases hm : (mask W)[i] <;> simp [hm]
  constructor <;> intro h
  · rwa [h, BitVec.or_zero] at hsplit
  · rw [← h, BitVec.and_assoc, BitVec.and_not_self]
    exact BitVec.and_zero

theorem State.accumulatorFits_iff {s : State} : s.accumulatorFits ↔ s.crc &&& mask s.width = s.crc :=
  and_not_mask_eq_zero_iff

/-! ### The update stays in its width -/

/-- The bit step takes the coefficient's low W bits alone (R78, R87). -/
theorem bitStep_congr_pol {W : WidthClass} {P P' : Word} (h : P' &&& mask W = P &&& mask W) (c : Word) (b : Bool) :
    bitStep W P' c b = bitStep W P c b := by
  rw [bitStep, bitStep, h]

theorem digestBits_congr_pol {k : Nat} {W : WidthClass} {P P' : Word} (h : P' &&& mask W = P &&& mask W)
    (d : BitVec k) (n : Nat) (c : Word) : digestBits W P' d n c = digestBits W P d n c := by
  induction n generalizing c with
  | zero => rfl
  | succ n ih => rw [digestBits_succ, digestBits_succ, bitStep_congr_pol h, ih]

theorem digestBits_and_mask {k : Nat} (W : WidthClass) (P : Word) (d : BitVec k) (n : Nat) {c : Word}
    (hc : c &&& mask W = c) : digestBits W P d n c &&& mask W = digestBits W P d n c := by
  induction n generalizing c with
  | zero => exact hc
  | succ n ih => exact ih (bitStep_and_mask W P c _)

/-- The low W bits, masked again, are the same (R90). -/
theorem startValue_and_mask (W : WidthClass) (init : Word) : startValue W init &&& mask W = startValue W init := by
  rw [startValue, BitVec.and_assoc, BitVec.and_self]

theorem update_and_mask {k : Nat} (c : Word) (W : WidthClass) (P : Word) (d : BitVec k) :
    update c W P d &&& mask W = update c W P d :=
  digestBits_and_mask W P d k (startValue_and_mask W c)

/-- The update takes the low W bits of the accumulator and of the coefficient alone (R19, R78, R88). -/
theorem update_congr {k : Nat} {W : WidthClass} {c c' P P' : Word} (hc : c' &&& mask W = c &&& mask W)
    (hP : P' &&& mask W = P &&& mask W) (d : BitVec k) : update c' W P' d = update c W P d := by
  rw [update, update, hc, digestBits_congr_pol hP]

/-! ### What a `CR` write does to each field -/

theorem State.changesWidthWithoutReset_eq_false_of_reset {v : Word} (h : crOperandReset v = true) (s : State) :
    s.changesWidthWithoutReset v = false := by
  simp [State.changesWidthWithoutReset, h]

/-- A `CR` write without `RESET` that is not refused keeps the width's code (R105, R117). -/
theorem State.polySize_eq_of_not_changesWidth {v : Word} {s : State} (hw : s.changesWidthWithoutReset v = false)
    (hr : crOperandReset v = false) : (crOperandFields v).polySize = s.cr.polySize := by
  simpa [State.changesWidthWithoutReset, hr] using hw

@[simp] theorem State.writeControl_init (v : Word) (s : State) : (s.writeControl v).init = s.init := by
  obtain ⟨-, h⟩ | ⟨-, -, h⟩ | ⟨-, -, h⟩ := writeControl_cases v s <;> simp [h]

@[simp] theorem State.writeControl_pol (v : Word) (s : State) : (s.writeControl v).pol = s.pol := by
  obtain ⟨-, h⟩ | ⟨-, -, h⟩ | ⟨-, -, h⟩ := writeControl_cases v s <;> simp [h]

@[simp] theorem State.writeControl_clocked (v : Word) (s : State) : (s.writeControl v).clocked = s.clocked := by
  obtain ⟨-, h⟩ | ⟨-, -, h⟩ | ⟨-, -, h⟩ := writeControl_cases v s <;> simp [h]

@[simp] theorem State.writeControl_pending (v : Word) (s : State) : (s.writeControl v).pending = s.pending := by
  obtain ⟨-, h⟩ | ⟨-, -, h⟩ | ⟨-, -, h⟩ := writeControl_cases v s <;> simp [h]

@[simp] theorem State.writeControl_platform (v : Word) (s : State) : (s.writeControl v).platform = s.platform := by
  obtain ⟨-, h⟩ | ⟨-, -, h⟩ | ⟨-, -, h⟩ := writeControl_cases v s <;> simp [h]

/-- Without `RESET` a `CR` write leaves the accumulator (R28, R105). -/
theorem State.writeControl_crc_cases (v : Word) (s : State) :
    (s.writeControl v).crc = s.crc ∨ crOperandReset v = true := by
  obtain ⟨-, h⟩ | ⟨-, hr, -⟩ | ⟨-, -, h⟩ := writeControl_cases v s
  · exact .inl (by rw [h, State.report_crc])
  · exact .inr hr
  · exact .inl (by rw [h, State.storeControl_crc])

/-- Only a `CR` write without `RESET` can be refused (R117). -/
theorem State.writeControl_refusal_cases (v : Word) (s : State) :
    ((s.writeControl v).refused = s.refused ∧ (s.writeControl v).reports = s.reports) ∨ crOperandReset v = false := by
  obtain ⟨hw, -⟩ | ⟨-, -, h⟩ | ⟨-, hr, -⟩ := writeControl_cases v s
  · exact .inr (Bool.eq_false_iff.2 fun hr => by
      rw [State.changesWidthWithoutReset_eq_false_of_reset hr] at hw
      exact Bool.false_ne_true hw)
  · exact .inl (by simp [h])
  · exact .inr hr

/-! ### What a transaction does to each field -/

@[simp] theorem effectOf_clocked (i : Instr) (s : State) : (effectOf i s).clocked = s.clocked := by
  cases i <;> simp [effectOf]

@[simp] theorem effectOf_pending (i : Instr) (s : State) : (effectOf i s).pending = s.pending := by
  cases i <;> simp [effectOf]

@[simp] theorem effectOf_platform (i : Instr) (s : State) : (effectOf i s).platform = s.platform := by
  cases i <;> simp [effectOf]

/-- Only a `CR` write changes `CR` (R28). -/
theorem effectOf_cr_cases (i : Instr) (s : State) : (effectOf i s).cr = s.cr ∨ ∃ v, i = .wr32Cr v := by
  cases i <;> simp [effectOf]

/-- Only an `INIT` write changes `INIT` (R28). -/
theorem effectOf_init_cases (i : Instr) (s : State) : (effectOf i s).init = s.init ∨ ∃ v, i = .wr32Init v := by
  cases i <;> simp [effectOf]

/-- Only a `POL` write changes `POL` (R28). -/
theorem effectOf_pol_cases (i : Instr) (s : State) : (effectOf i s).pol = s.pol ∨ ∃ v, i = .wr32Pol v := by
  cases i <;> simp [effectOf]

/-- Only a data-port write and a `CR` write with `RESET` = 1 change the accumulator (R28). -/
theorem effectOf_crc_cases (i : Instr) (s : State) :
    (effectOf i s).crc = s.crc ∨ (∃ x, i = feedOp x) ∨ ∃ v, i = .wr32Cr v ∧ v.getLsbD 0 = true := by
  cases i with
  | wr8Dr x => exact .inr (.inl ⟨.data8 x, rfl⟩)
  | wr16Dr x => exact .inr (.inl ⟨.data16 x, rfl⟩)
  | wr32Dr x => exact .inr (.inl ⟨.data32 x, rfl⟩)
  | wr32Cr v => exact (s.writeControl_crc_cases v).imp_right fun hr => .inr ⟨v, rfl, hr⟩
  | rd32Dr | rd32Cr | rd32Init | rd32Pol | wr32Init | wr32Pol => exact .inl rfl

/-- Only a `CR` write with `RESET` = 0 can set the refusal mark or be reported (R117). -/
theorem effectOf_refusal_cases (i : Instr) (s : State) :
    ((effectOf i s).refused = s.refused ∧ (effectOf i s).reports = s.reports) ∨
    ∃ v, i = .wr32Cr v ∧ v.getLsbD 0 = false := by
  cases i with
  | wr32Cr v => exact (s.writeControl_refusal_cases v).imp_right fun hr => ⟨v, rfl, hr⟩
  | wr8Dr | wr16Dr | wr32Dr | rd32Dr | rd32Cr | rd32Init | rd32Pol | wr32Init | wr32Pol => exact .inl ⟨rfl, rfl⟩

/-! ### Register changes and what made them -/

/-- R28: a register that is not the same in `t` as in `s` is one that the transaction, where there is one, may change. -/
def RegisterChangesBy (i : Option Instr) (s t : State) : Prop :=
  (t.crc ≠ s.crc → (∃ x, i = some (feedOp x)) ∨ ∃ v, i = some (.wr32Cr v) ∧ v.getLsbD 0 = true) ∧
  (t.cr ≠ s.cr → ∃ v, i = some (.wr32Cr v)) ∧
  (t.init ≠ s.init → ∃ v, i = some (.wr32Init v)) ∧
  (t.pol ≠ s.pol → ∃ v, i = some (.wr32Pol v))

theorem registerChangesBy_of_kept {s t : State} (hcrc : t.crc = s.crc) (hcr : t.cr = s.cr) (hinit : t.init = s.init)
    (hpol : t.pol = s.pol) (i : Option Instr) : RegisterChangesBy i s t :=
  ⟨fun h => absurd hcrc h, fun h => absurd hcr h, fun h => absurd hinit h, fun h => absurd hpol h⟩

theorem registerChangesBy_effectOf (i : Instr) (s : State) : RegisterChangesBy (some i) s (effectOf i s) := by
  simp only [RegisterChangesBy, Option.some.injEq]
  exact ⟨(effectOf_crc_cases i s).resolve_left, (effectOf_cr_cases i s).resolve_left,
    (effectOf_init_cases i s).resolve_left, (effectOf_pol_cases i s).resolve_left⟩

/-- An answer changes registers by the transaction its request decodes to, or, being a bus fault, not at all (R28, R115). -/
theorem answer_registerChangesBy {r : BusRequest} {s t : State} (h : answer r s = .next t) :
    ∃ i : Option Instr, (∀ j, i = some j → decodeRequest r = .ok j) ∧ RegisterChangesBy i s t := by
  obtain ⟨i, hd, rfl⟩ | ⟨e, -, rfl⟩ := answer_eq_next_cases h
  · exact ⟨some i, fun j hj => Option.some.inj hj ▸ hd, registerChangesBy_effectOf i s⟩
  · exact ⟨none, nofun, registerChangesBy_of_kept rfl rfl rfl rfl none⟩

/-- A step lands a system reset in one of the places where a platform input lands, or changes registers by the transaction
the first request decodes to, if any. -/
theorem step_registerChanges {s t : State} (h : step s = .next t) :
    (∃ e es, s.platform = e :: es ∧ e.what = .systemReset ∧ (s.pending = [] ∨ e.after = 0 ∨ s.clocked = false)) ∨
    ∃ i : Option Instr, (∀ j, i = some j → ∃ r rs, s.pending = r :: rs ∧ decodeRequest r = .ok j) ∧
      RegisterChangesBy i s t := by
  obtain ⟨-, -, rfl⟩ | ⟨e, es, hq, hdue, rfl⟩ | ⟨r, rs, hp, -, ha⟩ | ⟨r, rs, e, es, hp, -, -, -, ha⟩ :=
    step_eq_next_cases h
  · exact .inr ⟨none, nofun, registerChangesBy_of_kept rfl rfl rfl rfl none⟩
  · rcases hw : e.what with on | _
    · exact .inr ⟨none, nofun, registerChangesBy_of_kept rfl rfl rfl rfl none⟩
    · exact .inl ⟨e, es, hq, hw, hdue⟩
  all_goals
    obtain ⟨i, hd, hreg⟩ := answer_registerChangesBy ha
    exact .inr ⟨i, fun j hj => ⟨r, rs, hp, hd j hj⟩, hreg⟩

/-! ### Invariants of a step -/

/-- A property of states is kept by every step if the queues are no part of it and every platform input, every transaction
and the bus fault keep it. -/
theorem step_keeps {Inv : State → Prop} {s t : State}
    (hqueues : ∀ (u : State) rs es, Inv u → Inv { u with pending := rs, platform := es })
    (hland : ∀ e u, Inv u → Inv (u.land e)) (heffect : ∀ i u, Inv u → Inv (effectOf i u))
    (hfault : ∀ r u, Inv u → Inv (u.takeBusFault r)) (hs : Inv s) (h : step s = .next t) : Inv t := by
  obtain rfl | ⟨e, es, rfl⟩ | ⟨r, rs, es, -, ha⟩ := step_waits_lands_or_answers h
  · exact hs
  · exact hland e _ (hqueues s s.pending es hs)
  · obtain ⟨i, -, rfl⟩ | ⟨e, -, rfl⟩ := answer_eq_next_cases ha
    · exact heffect i _ (hqueues s rs es hs)
    · exact hfault r _ (hqueues s rs es hs)

/-! ### The accumulator in its width (R26) -/

theorem State.reset_accumulatorFits : State.reset.accumulatorFits := by decide

theorem State.land_accumulatorFits (e : PlatformInput) {s : State} (h : s.accumulatorFits) :
    (s.land e).accumulatorFits :=
  match e with
  | .clock _ => h
  | .systemReset => State.reset_accumulatorFits

/-- A `CR` write keeps the accumulator where it keeps the width, and loads it at the new width where it does not. -/
theorem State.writeControl_accumulatorFits (v : Word) {s : State} (h : s.accumulatorFits) :
    (s.writeControl v).accumulatorFits := by
  obtain ⟨-, hv⟩ | ⟨-, -, hv⟩ | ⟨hw, hr, hv⟩ := writeControl_cases v s <;> rw [hv]
  · exact h
  · exact State.accumulatorFits_iff.2 (startValue_and_mask _ _)
  · have hwidth : (s.storeControl v).width = s.width :=
      congrArg widthOfCode (State.polySize_eq_of_not_changesWidth hw hr)
    rwa [State.accumulatorFits, State.storeControl_crc, hwidth]

theorem State.feed_accumulatorFits {k : Nat} (x : BitVec k) (s : State) : (s.feed x).accumulatorFits :=
  State.accumulatorFits_iff.2 (update_and_mask _ _ _ _)

theorem effectOf_accumulatorFits (i : Instr) {s : State} (h : s.accumulatorFits) : (effectOf i s).accumulatorFits := by
  cases i with
  | wr8Dr x | wr16Dr x | wr32Dr x => exact s.feed_accumulatorFits x
  | wr32Cr v => exact State.writeControl_accumulatorFits v h
  | rd32Dr | rd32Cr | rd32Init | rd32Pol | wr32Init | wr32Pol => exact h

theorem step_accumulatorFits {s t : State} (hs : s.accumulatorFits) (h : step s = .next t) : t.accumulatorFits :=
  step_keeps (Inv := State.accumulatorFits) (fun _ _ _ hu => hu) (fun e _ => State.land_accumulatorFits e)
    (fun i _ => effectOf_accumulatorFits i) (fun _ _ hu => hu) hs h

/-! ### The marks and the reports (R24, R115, R117) -/

theorem State.reset_marksMatchReports : State.reset.marksMatchReports := by decide

/-- Recording a report sets the mark of its kind and no other. -/
theorem State.report_marksMatchReports (r : Report) {s : State} (h : s.marksMatchReports) :
    (s.report r).marksMatchReports := by
  obtain ⟨hf, hr⟩ := h
  simp [State.marksMatchReports, ← hf, ← hr]

theorem State.land_marksMatchReports (e : PlatformInput) {s : State} (h : s.marksMatchReports) :
    (s.land e).marksMatchReports := by
  cases e <;> exact h

theorem State.writeControl_marksMatchReports (v : Word) {s : State} (h : s.marksMatchReports) :
    (s.writeControl v).marksMatchReports := by
  obtain ⟨-, hv⟩ | ⟨-, -, hv⟩ | ⟨-, -, hv⟩ := writeControl_cases v s <;> rw [hv]
  · exact State.report_marksMatchReports _ h
  · exact h
  · exact h

theorem effectOf_marksMatchReports (i : Instr) {s : State} (h : s.marksMatchReports) :
    (effectOf i s).marksMatchReports := by
  cases i with
  | wr32Cr v => exact State.writeControl_marksMatchReports v h
  | wr8Dr | wr16Dr | wr32Dr | rd32Dr | rd32Cr | rd32Init | rd32Pol | wr32Init | wr32Pol => exact h

end Sys2Proof.Machine

namespace Sys2Proof.Proofs

open Sys2Proof.Machine

/-- Settles O43: feeding and loading give the low W bits alone, and a `CR` write that keeps the accumulator keeps the
width. -/
theorem stepKeepsAccumulatorInWidth : Obligations.StepKeepsAccumulatorInWidth := by
  unfold Obligations.StepKeepsAccumulatorInWidth
  intro s t hs h
  exact step_accumulatorFits hs h

/-- Settles O45: `State.report` is the one operation that touches the marks or the reports, and it changes both alike. -/
theorem stepKeepsMarksInAgreement : Obligations.StepKeepsMarksInAgreement := by
  unfold Obligations.StepKeepsMarksInAgreement
  intro s t hs h
  exact step_keeps (Inv := State.marksMatchReports) (fun _ _ _ hu => hu) (fun e _ => State.land_marksMatchReports e)
    (fun i _ => effectOf_marksMatchReports i) (fun r _ => State.report_marksMatchReports (faultReport r)) hs h

/-- Settles O24: every bit step masks its result and the coefficient, and the update masks the accumulator it starts
from. -/
theorem updateUsesAndGivesLowBitsOnly : Obligations.UpdateUsesAndGivesLowBitsOnly := by
  unfold Obligations.UpdateUsesAndGivesLowBitsOnly
  intro W c P k d
  refine ⟨toNat_lt_of_and_mask (update_and_mask c W P d), fun c' P' hlow => ?_⟩
  have hc : c' &&& mask W = c &&& mask W := and_mask_congr fun i hi => (hlow i hi).1
  have hP : P' &&& mask W = P &&& mask W := and_mask_congr fun i hi => (hlow i hi).2
  exact update_congr hc hP d

/-- Settles O35: field by field, what the transaction's effect does to it. -/
theorem transactionFrame : Obligations.TransactionFrame := by
  unfold Obligations.TransactionFrame
  intro i s t h
  obtain ⟨-, rfl⟩ := exec_eq_next_iff.1 h
  exact ⟨effectOf_cr_cases i s, effectOf_init_cases i s, effectOf_pol_cases i s, effectOf_crc_cases i s,
    effectOf_reads_cases i s, effectOf_faulted i s, effectOf_refusal_cases i s, effectOf_clocked i s,
    effectOf_pending i s, effectOf_platform i s⟩

/-- Settles O36: waiting, switching the clock and a bus fault change no register, and a transaction only its own. -/
theorem stateChangesOnlyByWriteOrReset : Obligations.StateChangesOnlyByWriteOrReset := by
  unfold Obligations.StateChangesOnlyByWriteOrReset
  intro s t h
  exact step_registerChanges h

/-- Settles O44: the invariant holds at reset whatever the queues hold, and every step keeps it. -/
theorem reachableAccumulatorFits : Obligations.ReachableAccumulatorFits := by
  unfold Obligations.ReachableAccumulatorFits
  intro requests events t h i hi
  have hfits : t.accumulatorFits := by
    refine Reaches.of_invariant (Inv := State.accumulatorFits) ?start (fun _ _ => step_accumulatorFits) h
    case start => exact State.reset_accumulatorFits
  exact getLsbD_of_and_mask (State.accumulatorFits_iff.1 hfits) hi

/-- Settles O46: `crc` starts at the full width, and no mark is set and nothing is reported. -/
theorem resetMeetsTheInvariants : Obligations.ResetMeetsTheInvariants := by
  unfold Obligations.ResetMeetsTheInvariants
  exact ⟨State.reset_accumulatorFits, State.reset_marksMatchReports⟩

end Sys2Proof.Proofs
end

section
/-! SUPPORT. Proofs of the statements of 20_memory.md: the register map (O8), reads and writes done twice (O37, O38), the
step that answers a request (O10), and the fetch from the window (O11). -/

namespace Sys2Proof.Machine

/-! ### The fields of an access's descriptor (R45, R46) -/

/-- The bits of an access's descriptor: the offset, the size's code, the direction (R45). -/
theorem descriptorOf_getLsbD (write : Bool) (size : AccessSize) (off : BitVec 10) {i : Nat} (hi : i < 13) :
    (descriptorOf write size off).getLsbD i =
      if i < 10 then off.getLsbD i
      else if i < 12 then (codeOfSize size).getLsbD (i - 10)
      else write := by
  have hsize : i - 10 < 2 ↔ i < 12 := by omega
  rw [descriptorOf, BitVec.getLsbD_setWidth, decide_eq_true hi, Bool.true_and, BitVec.getLsbD_append,
    BitVec.getLsbD_append, BitVec.getLsbD_ofBool]
  simp only [hsize]
  split_ifs with hoff hcode
  · rfl
  · rfl
  · rw [decide_eq_true (by omega), Bool.true_and]

@[simp] theorem descWrite_descriptorOf (write : Bool) (size : AccessSize) (off : BitVec 10) :
    descWrite (descriptorOf write size off) = write :=
  descriptorOf_getLsbD write size off (by decide)

@[simp] theorem descSize_descriptorOf (write : Bool) (size : AccessSize) (off : BitVec 10) :
    descSize (descriptorOf write size off) = codeOfSize size := by
  refine BitVec.eq_of_getLsbD_eq fun i hi => ?_
  rw [descSize, BitVec.getLsbD_extractLsb', descriptorOf_getLsbD write size off (by omega), if_neg (by omega),
    if_pos (by omega), decide_eq_true hi, Bool.true_and, Nat.add_sub_cancel_left]

@[simp] theorem descOffset_descriptorOf (write : Bool) (size : AccessSize) (off : BitVec 10) :
    descOffset (descriptorOf write size off) = off := by
  refine BitVec.eq_of_getLsbD_eq fun i hi => ?_
  rw [descOffset, BitVec.getLsbD_extractLsb', descriptorOf_getLsbD write size off (by omega), if_pos (by omega),
    decide_eq_true hi, Bool.true_and, Nat.zero_add]

@[simp] theorem sizeOfCode_codeOfSize (size : AccessSize) : sizeOfCode (codeOfSize size) = some size := by
  cases size <;> rfl

/-! ### Which accesses the register map gives a transaction (R30, R33, R34) -/

@[simp] theorem regAtOffset_offsetOfReg (reg : Reg) : regAtOffset (offsetOfReg reg) = some reg := by
  cases reg <;> rfl

theorem offsetOfReg_of_regAtOffset {off : BitVec 10} {reg : Reg} (h : regAtOffset off = some reg) :
    off = offsetOfReg reg := by
  unfold regAtOffset at h
  split_ifs at h with hdr hcr hinit hpol <;> cases h <;> assumption

/-- A register is accessed as a word, and `DR` besides written at every width (R34). -/
theorem transactionAt_isOk_iff {write : Bool} {size : AccessSize} {reg : Reg} {w : Word} :
    (∃ i, transactionAt write size reg w = .ok i) ↔ size = .word ∨ (write = true ∧ reg = .dr) := by
  cases write <;> cases size <;> cases reg <;> simp [transactionAt]

theorem decode_descriptorOf_isOk_iff {write : Bool} {size : AccessSize} {off : BitVec 10} {w : Word} :
    (∃ i, decode (descriptorOf write size off) w = .ok i) ↔
      ∃ reg, off = offsetOfReg reg ∧ (size = .word ∨ (write = true ∧ reg = .dr)) := by
  simp only [decode, descSize_descriptorOf, sizeOfCode_codeOfSize, descOffset_descriptorOf, descWrite_descriptorOf]
  constructor
  · rintro ⟨i, hi⟩
    rcases hreg : regAtOffset off with _ | reg <;> simp only [hreg] at hi
    · cases hi
    · exact ⟨reg, offsetOfReg_of_regAtOffset hreg, transactionAt_isOk_iff.1 ⟨i, hi⟩⟩
  · rintro ⟨reg, rfl, hwidth⟩
    simpa only [regAtOffset_offsetOfReg] using transactionAt_isOk_iff.2 hwidth

/-! ### Transactions on a clocked block -/

theorem exec_of_clocked (i : Instr) {s : State} (h : s.clocked = true) : exec i s = .next (effectOf i s) :=
  exec_eq_next_iff.2 ⟨h, rfl⟩

theorem execAll_single_of_clocked (i : Instr) {s : State} (h : s.clocked = true) :
    execAll [i] s = .next (effectOf i s) := by
  rw [execAll_cons_of_next (exec_of_clocked i h), execAll_nil]

theorem execAll_twice_of_clocked (i : Instr) {s : State} (h : s.clocked = true) :
    execAll [i, i] s = .next (effectOf i (effectOf i s)) := by
  rw [execAll_cons_of_next (exec_of_clocked i h), execAll_single_of_clocked i (by rw [effectOf_clocked, h])]

/-- A transaction done twice in a row is the transaction done once exactly if its effect is idempotent there. -/
theorem execAll_twice_eq_once_iff (i : Instr) {s : State} (h : s.clocked = true) :
    execAll [i, i] s = execAll [i] s ↔ effectOf i (effectOf i s) = effectOf i s := by
  rw [execAll_twice_of_clocked i h, execAll_single_of_clocked i h, Host.Outcome.next.injEq]

/-- A read observes a value that no observation changes (R35). -/
theorem effectOf_read_observes {i : Instr} (hi : i = .rd32Dr ∨ i = .rd32Cr ∨ i = .rd32Init ∨ i = .rd32Pol) (s : State) :
    ∃ r, effectOf i s = s.observe r ∧ ∀ v, effectOf i (s.observe v) = (s.observe v).observe r := by
  obtain rfl | rfl | rfl | rfl := hi <;> exact ⟨_, rfl, fun _ => rfl⟩

theorem State.writeControl_of_reset {v : Word} (h : crOperandReset v = true) (s : State) :
    s.writeControl v = (s.storeControl v).loadStart := by
  simp [State.writeControl, State.changesWidthWithoutReset_eq_false_of_reset h, h]

/-- The fields stored and the start value loaded depend on the value written and on `INIT` alone (R49, R105). -/
theorem State.writeControl_twice_of_reset {v : Word} (h : crOperandReset v = true) (s : State) :
    (s.writeControl v).writeControl v = s.writeControl v := by
  rw [State.writeControl_of_reset h s, State.writeControl_of_reset h]
  rfl

/-- A transaction that moves the accumulator on when it is done again is not idempotent. -/
theorem execAll_twice_ne_once_of_crc {i : Instr} {s : State} (h : s.clocked = true)
    (hcrc : (effectOf i (effectOf i s)).crc ≠ (effectOf i s).crc) : execAll [i, i] s ≠ execAll [i] s :=
  fun heq => hcrc (congrArg State.crc ((execAll_twice_eq_once_iff i h).1 heq))

/-! ### The step that answers the first request -/

theorem step_of_no_platform {s : State} {r : BusRequest} {rs : List BusRequest} (hp : s.pending = r :: rs)
    (hq : s.platform = []) : step s = answer r { s with pending := rs } := by
  simp only [step, State.nextMove, hp, hq]

theorem step_of_platform_ahead {s : State} {r : BusRequest} {rs : List BusRequest} {e : PlatformEvent}
    {es : List PlatformEvent} (hp : s.pending = r :: rs) (hq : s.platform = e :: es) (he : e.after ≠ 0)
    (hc : s.clocked = true) : step s = answer r { s with pending := rs, platform := e.closer :: es } := by
  simp [step, State.nextMove, hp, hq, he, hc]

theorem answer_of_decodeRequest_ok {r : BusRequest} {i : Instr} (h : decodeRequest r = .ok i) (s : State) :
    answer r s = exec i s := by
  rw [answer, h]

theorem answer_of_decodeRequest_error {r : BusRequest} {e : Reject} (h : decodeRequest r = .error e) {s : State}
    (hc : s.clocked = true) : answer r s = .next (s.takeBusFault r) := by
  rw [answer, h]
  exact whenClocked_of_clocked hc _

theorem State.takeBusFault_fetch (off : BitVec 10) (s : State) :
    s.takeBusFault (.fetch off) = { s with faulted := true, reports := s.reports ++ [.fetchFault off] } := by
  simp [State.takeBusFault, faultReport, State.report, Report.isFault, Report.isRefusal]

end Sys2Proof.Machine

namespace Sys2Proof.Proofs

open Sys2Proof.Machine

/-- Settles O8: the descriptor's fields are the access's, and R47's map is read off register by register. -/
theorem onlyTheTableAccessesDecode : Obligations.OnlyTheTableAccessesDecode := by
  unfold Obligations.OnlyTheTableAccessesDecode
  intro write size off w
  rw [decode_descriptorOf_isOk_iff]
  constructor
  · rintro ⟨reg, rfl, hwidth⟩
    cases reg with
    | dr => exact .inl ⟨rfl, hwidth.symm.imp_left And.left⟩
    | cr | init | pol => simpa [offsetOfReg] using hwidth
  · rintro (⟨rfl, hwidth⟩ | ⟨rfl | rfl | rfl, rfl⟩)
    · exact ⟨.dr, rfl, hwidth.symm.imp_right fun hw => ⟨hw, rfl⟩⟩
    · exact ⟨.cr, rfl, .inl rfl⟩
    · exact ⟨.init, rfl, .inl rfl⟩
    · exact ⟨.pol, rfl, .inl rfl⟩

/-- Settles O37: a read only observes, so the second read finds the registers as the first did. -/
theorem readsHaveNoSideEffects : Obligations.ReadsHaveNoSideEffects := by
  unfold Obligations.ReadsHaveNoSideEffects
  intro i s hc hi
  obtain ⟨r, hfirst, hagain⟩ := effectOf_read_observes hi s
  refine ⟨r, ?once, ?twice⟩
  case once => rw [exec_of_clocked i hc, hfirst]; rfl
  case twice =>
    rw [execAll_twice_of_clocked i hc, hfirst, hagain]
    simp [State.observe]

/-- Settles O38: each of the three writes puts values that do not depend on what it changes, while a zero fed to the
reset block moves its accumulator on each time. -/
theorem writeIdempotence : Obligations.WriteIdempotence := by
  unfold Obligations.WriteIdempotence
  refine ⟨fun s v hc => ⟨?init, ?pol, fun hreset => ?cr⟩, ⟨State.reset, 0#8, ?byte⟩, ⟨State.reset, 0#16, ?halfword⟩,
    ⟨State.reset, 0#32, ?word⟩⟩
  case init => exact (execAll_twice_eq_once_iff _ hc).2 rfl
  case pol => exact (execAll_twice_eq_once_iff _ hc).2 rfl
  case cr => exact (execAll_twice_eq_once_iff _ hc).2 (State.writeControl_twice_of_reset hreset s)
  all_goals exact execAll_twice_ne_once_of_crc rfl (by decide +kernel)

/-- Settles O10: the request is at the head of the queue and no platform input is due before it. -/
theorem stepRunsTheDecodedTransaction : Obligations.StepRunsTheDecodedTransaction := by
  unfold Obligations.StepRunsTheDecodedTransaction
  intro s r rs i hp hd _
  refine ⟨fun hq => ?alone, fun e es hq he hc => ?ahead⟩
  case alone => rw [step_of_no_platform hp hq, answer_of_decodeRequest_ok hd]
  case ahead =>
    rw [step_of_platform_ahead hp hq he hc, answer_of_decodeRequest_ok hd]
    rfl

/-- Settles O11: a fetch decodes to no transaction, so the block takes a bus fault for it. -/
theorem fetchFromTheWindowFaults : Obligations.FetchFromTheWindowFaults := by
  unfold Obligations.FetchFromTheWindowFaults
  intro s off rs hc hq hp
  have hd : decodeRequest (.fetch off) = .error .instructionFetch := rfl
  calc step s
    _ = answer (.fetch off) { s with pending := rs } := step_of_no_platform hp hq
    _ = .next (State.takeBusFault (.fetch off) { s with pending := rs }) := answer_of_decodeRequest_error hd hc
    _ = _ := by rw [State.takeBusFault_fetch]

end Sys2Proof.Proofs
end

section
/-! SUPPORT. Proofs of the statements of 30_encoding.md: the descriptor table and the encoder (O1 to O5), the lines of R59
(O6), the control register's codes and its value read back (O9, O30), and the control value of a configuration (O47). -/

namespace Sys2Proof.Machine

/-! ### A descriptor and its fields (R45, R46) -/

theorem codeOfSize_of_sizeOfCode {code : BitVec 2} {size : AccessSize} (h : sizeOfCode code = some size) :
    codeOfSize size = code := by
  unfold sizeOfCode at h
  split_ifs at h with hcode hcode hcode <;> cases h <;> exact hcode.symm

/-- The direction, the size's code and the offset are the whole descriptor (R45). -/
theorem descriptor_ext {d d' : Descriptor} (hwrite : descWrite d = descWrite d') (hsize : descSize d = descSize d')
    (hoff : descOffset d = descOffset d') : d = d' := by
  refine BitVec.eq_of_getLsbD_eq fun i hi => ?_
  obtain hlow | hmid | rfl : i < 10 ∨ (10 ≤ i ∧ i < 12) ∨ i = 12 := by omega
  · simpa [descOffset, hlow] using congrArg (·.getLsbD i) hoff
  · simpa [descSize, show i - 10 < 2 by omega, Nat.add_sub_cancel' hmid.1] using congrArg (·.getLsbD (i - 10)) hsize
  · exact hwrite

theorem mkDescriptor_eq_descriptorOf (write : Bool) (size : AccessSize) (reg : Reg) :
    mkDescriptor write size reg = descriptorOf write size (offsetOfReg reg) := rfl

/-- A row's descriptor decodes as R34 has it for its direction, width and register, whatever the bus value. -/
theorem decode_mkDescriptor (write : Bool) (size : AccessSize) (reg : Reg) (w : Word) :
    decode (mkDescriptor write size reg) w = transactionAt write size reg w := by
  simp [decode, mkDescriptor_eq_descriptorOf]

/-- What decodes to a transaction is a row's descriptor. -/
theorem decode_eq_ok_iff {d : Descriptor} {w : Word} {i : Instr} :
    decode d w = .ok i ↔
      ∃ write size reg, d = mkDescriptor write size reg ∧ transactionAt write size reg w = .ok i := by
  constructor
  · intro h
    unfold decode at h
    rcases hsize : sizeOfCode (descSize d) with _ | size <;> simp only [hsize] at h
    · cases h
    rcases hreg : regAtOffset (descOffset d) with _ | reg <;> simp only [hreg] at h
    · cases h
    refine ⟨descWrite d, size, reg, descriptor_ext ?_ ?_ ?_, h⟩ <;> rw [mkDescriptor_eq_descriptorOf]
    · rw [descWrite_descriptorOf]
    · rw [descSize_descriptorOf, codeOfSize_of_sizeOfCode hsize]
    · rw [descOffset_descriptorOf, offsetOfReg_of_regAtOffset hreg]
  · rintro ⟨write, size, reg, rfl, h⟩
    rw [decode_mkDescriptor, h]

@[simp] theorem decodeRequest_data (d : Descriptor) (w : Word) : decodeRequest (.data d w) = decode d w := rfl

/-- The ten descriptors of R56's table. -/
def tableDescriptors : List Descriptor :=
  [0x1000#13, 0x1400#13, 0x1800#13, 0x0800#13, 0x1808#13, 0x0808#13, 0x1810#13, 0x0810#13, 0x1814#13, 0x0814#13]

theorem decode_isOk_of_mem_tableDescriptors {d : Descriptor} (h : d ∈ tableDescriptors) (w : Word) :
    ∃ i, decode d w = .ok i := by
  simp only [tableDescriptors, List.mem_cons, List.not_mem_nil, or_false] at h
  rcases h with rfl | rfl | rfl | rfl | rfl | rfl | rfl | rfl | rfl | rfl <;> exact ⟨_, rfl⟩

/-! ### Operands (R55) -/

theorem busOperand_setWidth {k : Nat} (hk : k ≤ 32) (x : BitVec k) : busOperand k (x.setWidth 32) = x := by
  rw [busOperand, BitVec.setWidth_setWidth_of_le _ hk, BitVec.setWidth_eq]

theorem busOperand_word (w : Word) : busOperand 32 w = w := BitVec.setWidth_eq w

theorem busOperand_eq_extractLsb' {k : Nat} (hk : k ≤ 32) (w : Word) : busOperand k w = w.extractLsb' 0 k :=
  BitVec.setWidth_eq_extractLsb' hk

/-- The bus value that a request in canonical form carries: a write's operand alone, and nothing for a read. -/
def canonicalBusValue (write : Bool) (size : AccessSize) (w : Word) : Word :=
  if write then (busOperand size.bits w).setWidth 32 else 0#32

/-- A row's transaction has the row's descriptor as its encoding, with the bus value brought into canonical form. -/
theorem encode_of_transactionAt {write : Bool} {size : AccessSize} {reg : Reg} {w : Word} {i : Instr}
    (h : transactionAt write size reg w = .ok i) :
    encode i = .data (mkDescriptor write size reg) (canonicalBusValue write size w) := by
  obtain rfl | ⟨rfl, rfl⟩ := transactionAt_isOk_iff.1 ⟨i, h⟩
  · cases write <;> cases reg <;> cases h <;> simp [encode, canonicalBusValue, busOperand, AccessSize.bits]
  · cases size <;> cases h <;> simp [encode, canonicalBusValue, busOperand, AccessSize.bits]

/-- Bringing the bus value of a canonical request into canonical form changes nothing. -/
theorem canonicalBusValue_of_canonical {write : Bool} {size : AccessSize} {reg : Reg} {w : Word}
    (h : (BusRequest.data (mkDescriptor write size reg) w).canonical = true) : canonicalBusValue write size w = w := by
  simp only [BusRequest.canonical, mkDescriptor_eq_descriptorOf, descWrite_descriptorOf, descSize_descriptorOf,
    sizeOfCode_codeOfSize] at h
  cases write with
  | false => exact (of_decide_eq_true h).symm
  | true =>
    have hw : w.toNat < 2 ^ size.bits := of_decide_eq_true h
    refine BitVec.eq_of_toNat_eq ?_
    rw [canonicalBusValue, if_pos rfl, busOperand, BitVec.toNat_setWidth, BitVec.toNat_setWidth, Nat.mod_eq_of_lt hw,
      Nat.mod_eq_of_lt w.isLt]

/-! ### How a row's descriptor is answered -/

theorem answer_mkDescriptor {write : Bool} {size : AccessSize} {reg : Reg} {w : Word} {i : Instr}
    (h : transactionAt write size reg w = .ok i) (s : State) :
    answer (.data (mkDescriptor write size reg) w) s = exec i s := by
  rw [answer_of_decodeRequest_ok]
  rw [decodeRequest_data, decode_mkDescriptor, h]

theorem answer_byteWrite (w : Word) (s : State) :
    answer (.data 0x1000#13 w) s = exec (.wr8Dr (w.extractLsb' 0 8)) s := by
  rw [← busOperand_eq_extractLsb' (by decide)]
  exact answer_mkDescriptor (write := true) (size := .byte) (reg := .dr) rfl s

theorem answer_halfwordWrite (w : Word) (s : State) :
    answer (.data 0x1400#13 w) s = exec (.wr16Dr (w.extractLsb' 0 16)) s := by
  rw [← busOperand_eq_extractLsb' (by decide)]
  exact answer_mkDescriptor (write := true) (size := .halfword) (reg := .dr) rfl s

/-- A request that is no transaction faults with its descriptor and a write's bus value (R115). -/
theorem State.takeBusFault_data (d : Descriptor) (w : Word) (s : State) :
    s.takeBusFault (.data d w) = { s with
      faulted := true
      reports := s.reports ++ [.busFault d (if d.getLsbD 12 then some w else none)] } := by
  simp [State.takeBusFault, faultReport, State.report, Report.isFault, Report.isRefusal, descWrite]

/-- Requests that decode alike and would be reported alike are answered alike. -/
theorem answer_congr {r r' : BusRequest} (hdecode : decodeRequest r = decodeRequest r')
    (hreport : faultReport r = faultReport r') (s : State) : answer r s = answer r' s := by
  have hfault : State.takeBusFault r = State.takeBusFault r' := by
    funext u
    rw [State.takeBusFault, State.takeBusFault, hreport]
  rw [answer, answer, hdecode, hfault]

/-- A read takes nothing from the bus value (R55). -/
theorem decode_read_congr {d : Descriptor} (h : descWrite d = false) (w w' : Word) : decode d w = decode d w' := by
  have hread (size : AccessSize) (reg : Reg) : transactionAt false size reg w = transactionAt false size reg w' := by
    cases size <;> cases reg <;> rfl
  simp only [decode, h, hread]

/-! ### Which lines assemble (R59) -/

theorem writable_iff {size : AccessSize} {reg : Reg} : reg.writable size = true ↔ size = .word ∨ reg = .dr := by
  cases size <;> cases reg <;> decide

theorem readable_iff {size : AccessSize} {reg : Reg} : reg.readable size = true ↔ size = .word := by
  cases size <;> simp [Reg.readable]

theorem exists_toOption_eq_some_iff {ε α : Type} {x : Except ε α} :
    (∃ a, x.toOption = some a) ↔ ∃ a, x = .ok a := by
  cases x <;> simp [Except.toOption]

theorem assemble_write_isSome_iff {size : AccessSize} {reg : Reg} {imm : Nat} :
    (∃ i, assemble (.wr size reg imm) = some i) ↔ imm < 2 ^ size.bits ∧ (size = .word ∨ reg = .dr) := by
  by_cases himm : imm < 2 ^ size.bits <;>
    simp [assemble, himm, exists_toOption_eq_some_iff, transactionAt_isOk_iff]

theorem assemble_read_isSome_iff {size : AccessSize} {reg : Reg} :
    (∃ i, assemble (.rd size reg) = some i) ↔ size = .word := by
  simp [assemble, exists_toOption_eq_some_iff, transactionAt_isOk_iff]

/-! ### The control register's value (R48, R54, R106) -/

/-- The fields of a written value, read back: bits 7:3 in their places and zeros elsewhere. -/
theorem value_crOperandFields (v : Word) : (crOperandFields v).value = v &&& 0xF8#32 := by
  have hfields : v.extractLsb' 7 1 ++ v.extractLsb' 5 2 ++ v.extractLsb' 3 2 = v.extractLsb' 3 5 := by
    rw [BitVec.extractLsb'_append_extractLsb'_eq_extractLsb' (by decide),
      BitVec.extractLsb'_append_extractLsb'_eq_extractLsb' (by decide)]
  have hmask (i : Nat) (hi : i < 32) : (0xF8#32).getLsbD i = decide (3 ≤ i ∧ i < 8) := by
    revert i; decide
  refine BitVec.eq_of_getLsbD_eq fun i hi => ?_
  simp only [ControlReg.value, crOperandFields]
  rw [hfields, BitVec.getLsbD_setWidth, BitVec.getLsbD_append, BitVec.getLsbD_and, hmask i hi]
  by_cases hlow : i < 3
  · simp [hlow]
  · have hwidth : i - 3 < 5 ↔ i < 8 := by omega
    simp [hlow, hi, hwidth, show 3 ≤ i by omega, Bool.and_comm]

theorem State.writeControl_cr_of_not_refused {v : Word} {s : State} (h : s.changesWidthWithoutReset v = false) :
    (s.writeControl v).cr = crOperandFields v := by
  cases hr : crOperandReset v <;> simp [State.writeControl, h, hr]

theorem changesWidthWithoutReset_eq_false_iff {v : Word} {s : State} :
    s.changesWidthWithoutReset v = false ↔ v.getLsbD 0 = true ∨ v.extractLsb' 3 2 = s.cr.polySize := by
  by_cases hr : v.getLsbD 0 = true <;>
    simp [State.changesWidthWithoutReset, crOperandReset, crOperandFields, hr, -BitVec.getLsbD_eq_getElem]

/-! ### The control value of a configuration (R61, R83) -/

@[simp] theorem widthOfCode_codeOfWidth (W : WidthClass) : widthOfCode (codeOfWidth W) = W := by
  cases W <;> rfl

@[simp] theorem modeOfCode_codeOfMode (mode : InputReflection) : modeOfCode (codeOfMode mode) = mode := by
  cases mode <;> rfl

theorem crOperandReset_controlValue (config : CrcConfig) : crOperandReset (controlValue config) = true := by
  simp [crOperandReset, controlValue]

/-- The fields stand in the control value where a `CR` write takes them from. -/
theorem crOperandFields_controlValue (config : CrcConfig) :
    crOperandFields (controlValue config) =
      ⟨codeOfWidth (polynomialWidth config.polynomial), codeOfMode config.inputReflection,
        BitVec.ofBool config.outputReflect⟩ := by
  unfold controlValue
  generalize codeOfWidth (polynomialWidth config.polynomial) = width
  generalize codeOfMode config.inputReflection = mode
  generalize config.outputReflect = flag
  decide +revert

/-- The control value selects its configuration and loads the start value at the width selected. -/
theorem State.writeControl_controlValue (config : CrcConfig) (s : State) :
    s.writeControl (controlValue config) = { s with
      cr := ⟨codeOfWidth (polynomialWidth config.polynomial), codeOfMode config.inputReflection,
        BitVec.ofBool config.outputReflect⟩
      crc := startValue (polynomialWidth config.polynomial) s.init } := by
  rw [State.writeControl_of_reset (crOperandReset_controlValue config)]
  simp [State.loadStart, State.storeControl, State.width, crOperandFields_controlValue]

theorem ofBool_beq_one (b : Bool) : (BitVec.ofBool b == 1#1) = b := by
  cases b <;> rfl

end Sys2Proof.Machine

namespace Sys2Proof.Proofs

open Sys2Proof.Machine

/-- Settles O3: each transaction encodes to its own row's descriptor, and its operand comes back from the bus value. -/
theorem decodeOfEncodeIsTheTransaction : Obligations.DecodeOfEncodeIsTheTransaction := by
  unfold Obligations.DecodeOfEncodeIsTheTransaction
  intro i _
  cases i with
  | wr8Dr x | wr16Dr x =>
    rw [encode, decodeRequest, decode_mkDescriptor, transactionAt, busOperand_setWidth (by decide)]
  | wr32Dr x | wr32Cr x | wr32Init x | wr32Pol x =>
    rw [encode, decodeRequest, decode_mkDescriptor, transactionAt, busOperand_word]
  | rd32Dr | rd32Cr | rd32Init | rd32Pol => rw [encode, decodeRequest, decode_mkDescriptor, transactionAt]

/-- Settles O2: a descriptor that decodes is one of the table's rows and is answered as its transaction, and one that does
not is none of the ten. -/
theorem answerFollowsTheDescriptorTable : Obligations.AnswerFollowsTheDescriptorTable := by
  unfold Obligations.AnswerFollowsTheDescriptorTable
  intro d w s hc
  rcases hd : decodeRequest (.data d w) with e | i
  case error =>
    have hnone : d ∉ tableDescriptors := fun hmem => by
      obtain ⟨i, hi⟩ := decode_isOk_of_mem_tableDescriptors hmem w
      rw [decodeRequest_data, hi] at hd
      cases hd
    simp only [tableDescriptors, List.mem_cons, List.not_mem_nil, or_false, not_or] at hnone
    simp only [hnone, if_false]
    rw [answer_of_decodeRequest_error hd hc, State.takeBusFault_data]
  case ok =>
    obtain ⟨write, size, reg, rfl, hrow⟩ := decode_eq_ok_iff.1 hd
    rw [answer_mkDescriptor hrow]
    obtain rfl | ⟨rfl, rfl⟩ := transactionAt_isOk_iff.1 ⟨i, hrow⟩
    · cases write <;> cases reg <;> cases hrow <;> rfl
    · cases size <;> cases hrow <;> rfl

/-- Settles O4: a request that decodes has a row's descriptor, and in canonical form the bus value the encoder gives. -/
theorem encodeOfDecodeIsTheRequest : Obligations.EncodeOfDecodeIsTheRequest := by
  unfold Obligations.EncodeOfDecodeIsTheRequest
  intro r i hcanonical h
  cases r with
  | fetch off => cases h
  | data d w =>
    obtain ⟨write, size, reg, rfl, hrow⟩ := decode_eq_ok_iff.1 h
    rw [encode_of_transactionAt hrow, canonicalBusValue_of_canonical hcanonical]

/-- Settles O5: the narrow writes take the low bits alone, and a read neither decodes by nor reports its bus value. -/
theorem busBitsAboveTheWidthAreNoOperand : Obligations.BusBitsAboveTheWidthAreNoOperand := by
  unfold Obligations.BusBitsAboveTheWidthAreNoOperand
  intro s w w'
  refine ⟨fun h => ?byte, fun h => ?halfword, fun d hd => ?read⟩
  case byte => rw [answer_byteWrite, answer_byteWrite, h]
  case halfword => rw [answer_halfwordWrite, answer_halfwordWrite, h]
  case read =>
    have hread : descWrite d = false := hd
    have hdecode : decodeRequest (.data d w) = decodeRequest (.data d w') := decode_read_congr hread w w'
    have hreport : faultReport (.data d w) = faultReport (.data d w') := by simp [faultReport, hread]
    exact answer_congr hdecode hreport s

/-- Settles O6: both sides name the register's widths of R34 and the bound on the immediate. -/
theorem syntaxAssemblesExactlyTheTenForms : Obligations.SyntaxAssemblesExactlyTheTenForms := by
  unfold Obligations.SyntaxAssemblesExactlyTheTenForms
  intro l
  cases l with
  | wr size reg imm =>
    rw [assemble_write_isSome_iff, AsmLine.wellFormed, Bool.and_eq_true, decide_eq_true_iff, writable_iff, and_comm]
  | rd size reg => rw [assemble_read_isSome_iff, AsmLine.wellFormed, readable_iff]

/-- Settles O30: a write that is not refused stores the fields, whose read-back is bits 7:3 of the written value. -/
theorem controlReadsBackWithoutResetAndReservedBits : Obligations.ControlReadsBackWithoutResetAndReservedBits := by
  unfold Obligations.ControlReadsBackWithoutResetAndReservedBits
  intro s v hc hv
  have hcr : (s.writeControl v).cr = crOperandFields v :=
    State.writeControl_cr_of_not_refused (changesWidthWithoutReset_eq_false_iff.2 hv)
  refine ⟨effectOf .rd32Cr (effectOf (.wr32Cr v) s), ?run, ?value⟩
  case run =>
    rw [execAll_cons_of_next (exec_of_clocked _ hc), execAll_single_of_clocked _ (by rw [effectOf_clocked, hc])]
  case value => simp [effectOf, hcr, value_crOperandFields]

/-- Settles O47: the control value carries `RESET` and the codes of the configuration in their fields. -/
theorem controlValueSelectsTheConfiguration : Obligations.ControlValueSelectsTheConfiguration := by
  unfold Obligations.ControlValueSelectsTheConfiguration
  intro config s hc
  refine ⟨_, exec_of_clocked _ hc, ?_⟩
  rw [effectOf, State.writeControl_controlValue]
  exact ⟨widthOfCode_codeOfWidth _, modeOfCode_codeOfMode _, ofBool_beq_one _, rfl⟩

/-- Settles O1: the five descriptors are rows' descriptors. -/
theorem writtenOutDescriptorsDecode : Obligations.WrittenOutDescriptorsDecode := by
  unfold Obligations.WrittenOutDescriptorsDecode
  exact ⟨decode_mkDescriptor true .byte .dr _, decode_mkDescriptor false .word .dr _,
    decode_mkDescriptor true .word .cr _, decode_mkDescriptor true .word .init _, decode_mkDescriptor false .word .pol _⟩

/-- Settles O9: every code is looked up in the tables of R51 and R52. -/
theorem controlCodesSelectWidthAndMode : Obligations.ControlCodesSelectWidthAndMode := by
  unfold Obligations.ControlCodesSelectWidthAndMode
  decide

end Sys2Proof.Proofs
end

section
/-! SUPPORT. Proofs of the statements of 40_reflection.md: the three reversals (O18, O19), input reflection (O20), and
output reflection (O21, O22). -/

namespace Sys2Proof.Machine

/-! ### A reversal and its halves (R63 to R65) -/

theorem reflectByte_getLsbD (x : Byte) (i : Nat) :
    (reflectByte x).getLsbD i = (decide (i < 8) && x.getLsbD (7 - i)) := reverse_getLsbD x i

theorem reflectHalfword_getLsbD (x : Halfword) (i : Nat) :
    (reflectHalfword x).getLsbD i = (decide (i < 16) && x.getLsbD (15 - i)) := reverse_getLsbD x i

theorem reflectWord_getLsbD (x : Word) (i : Nat) :
    (reflectWord x).getLsbD i = (decide (i < 32) && x.getLsbD (31 - i)) := reverse_getLsbD x i

/-- A value is reversed by reversing its two halves and swapping them. -/
theorem reverse_eq_reverse_halves {n : Nat} (x : BitVec (n + n)) :
    x.reverse = (x.extractLsb' 0 n).reverse ++ (x.extractLsb' n n).reverse := by
  conv => lhs; rw [← BitVec.extractLsb'_append_extractLsb' (x := x)]
  rw [BitVec.reverse_append, BitVec.cast_eq]

/-! ### Input reflection, chunk by chunk (R70) -/

theorem word_eq_append_bytes (x : Word) :
    x = x.extractLsb' 24 8 ++ x.extractLsb' 16 8 ++ x.extractLsb' 8 8 ++ x.extractLsb' 0 8 := by
  rw [BitVec.extractLsb'_append_extractLsb'_eq_extractLsb' (by decide : 24 = 16 + 8),
    BitVec.extractLsb'_append_extractLsb'_eq_extractLsb' (by decide : 16 = 8 + 8),
    BitVec.extractLsb'_append_extractLsb'_eq_extractLsb' (by decide : 8 = 0 + 8), BitVec.extractLsb'_eq_self]

/-- Each chunk stays in its place and has its own bits reversed. -/
theorem reverseChunks_extractLsb' {k g n j : Nat} (d : BitVec k) (h : g * n ≤ k) (hj : j < n) :
    (reverseChunks g d n).extractLsb' (g * j) g = (d.extractLsb' (g * j) g).reverse := by
  refine BitVec.eq_of_getLsbD_eq fun i hi => ?_
  have hin : g * j + i < g * n := calc
    g * j + i < g * j + g := Nat.add_lt_add_left hi _
    _ = g * (j + 1) := (Nat.mul_succ g j).symm
    _ ≤ g * n := Nat.mul_le_mul_left g hj
  have hdiv : (g * j + i) / g = j := by
    rw [Nat.mul_add_div (Nat.zero_lt_of_lt hi), Nat.div_eq_of_lt hi, Nat.add_zero]
  have hmod : (g * j + i) % g = i := by rw [Nat.mul_add_mod, Nat.mod_eq_of_lt hi]
  rw [← reversedChunk, reversedChunk_getLsbD, BitVec.getLsbD_extractLsb', reverseChunks_getLsbD g d n h, hdiv, hmod,
    decide_eq_true hin, Bool.true_and]

/-- A granularity no narrower than the value reverses the whole value: the mismatched cells of R70's table (D11). -/
theorem reflectIn_of_le_granularity {k n : Nat} {m : InputReflection} (d : BitVec k) (hm : granularity m = some n)
    (hk : 0 < k) (hle : k ≤ n) : reflectIn m d = d.reverse := by
  have hone : reflectIn m d = reverseChunks k d 1 := by
    simp only [reflectIn, hm, Nat.min_eq_right hle, Nat.div_self hk]
  calc reflectIn m d
    _ = (reverseChunks k d 1).extractLsb' (k * 0) k := by rw [hone, Nat.mul_zero, BitVec.extractLsb'_eq_self]
    _ = d.reverse := by
      rw [reverseChunks_extractLsb' d (Nat.mul_one k).le Nat.zero_lt_one, Nat.mul_zero, BitVec.extractLsb'_eq_self]

/-- A value of two chunks: each half is reversed in place. -/
theorem reverseChunks_two {n : Nat} (d : BitVec (n + n)) :
    reverseChunks n d 2 = (d.extractLsb' n n).reverse ++ (d.extractLsb' 0 n).reverse := by
  have hchunk : ∀ j < 2, (reverseChunks n d 2).extractLsb' (n * j) n = (d.extractLsb' (n * j) n).reverse :=
    fun _ => reverseChunks_extractLsb' d (Nat.mul_two n).le
  have hlow := hchunk 0 (by decide)
  have hhigh := hchunk 1 (by decide)
  rw [Nat.mul_zero] at hlow
  rw [Nat.mul_one] at hhigh
  rw [← BitVec.extractLsb'_append_extractLsb' (x := reverseChunks n d 2), hlow, hhigh]

theorem reflectIn_byByte_word (d : Word) :
    reflectIn .byByte d = reflectByte (d.extractLsb' 24 8) ++ reflectByte (d.extractLsb' 16 8)
      ++ reflectByte (d.extractLsb' 8 8) ++ reflectByte (d.extractLsb' 0 8) := by
  have hchunk : ∀ j < 4, (reverseChunks 8 d 4).extractLsb' (8 * j) 8 = reflectByte (d.extractLsb' (8 * j) 8) :=
    fun _ hj => reverseChunks_extractLsb' d (by decide) hj
  calc reflectIn .byByte d
    _ = reverseChunks 8 d 4 := rfl
    _ = _ := by
      rw [word_eq_append_bytes (reverseChunks 8 d 4), hchunk 0 (by decide), hchunk 1 (by decide), hchunk 2 (by decide),
        hchunk 3 (by decide)]

/-! ### Output reflection (R72, R73) -/

/-- Bit i of a container's low w bits reversed and extended by zeros. -/
theorem reverse_setWidth_getLsbD {w k : Nat} (v : BitVec k) (hw : w ≤ k) (i : Nat) :
    ((v.setWidth w).reverse.setWidth k).getLsbD i = (decide (i < w) && v.getLsbD (w - 1 - i)) := by
  rw [BitVec.getLsbD_setWidth, reverse_getLsbD, BitVec.getLsbD_setWidth]
  by_cases hi : i < w
  · simp [hi, show i < k by omega, show w - 1 - i < w by omega]
  · simp [hi]

/-- Output reflection reverses the low W bits, whatever stands above them; at W = 7 too. -/
theorem reflectOut_getLsbD (W : WidthClass) (v : Word) (i : Nat) :
    (reflectOut W v).getLsbD i = (decide (i < widthBits W) && v.getLsbD (widthBits W - 1 - i)) := by
  cases W with
  | w7 =>
    rw [reflectOut, widthBits, BitVec.getLsbD_setWidth, BitVec.getLsbD_ushiftRight, reflectByte_getLsbD,
      BitVec.getLsbD_setWidth]
    by_cases hi : i < 7
    · simp [hi, show i < 32 by omega, show 1 + i < 8 by omega, show 7 - (1 + i) = 6 - i by omega,
        show 6 - i < 8 by omega]
    · simp [hi, show ¬ 1 + i < 8 by omega]
  | w8 => exact reverse_setWidth_getLsbD v (by decide) i
  | w16 => exact reverse_setWidth_getLsbD v (by decide) i
  | w32 => exact reflectWord_getLsbD v i

/-- On the values below 2^W output reflection is an involution, at every width (R74). -/
theorem reflectOut_reflectOut {W : WidthClass} {v : Word} (h : v.toNat < 2 ^ widthBits W) :
    reflectOut W (reflectOut W v) = v := by
  refine BitVec.eq_of_getLsbD_eq fun i _ => ?_
  rw [reflectOut_getLsbD, reflectOut_getLsbD]
  by_cases hi : i < widthBits W
  · simp [hi, show widthBits W - 1 - i < widthBits W by omega,
      show widthBits W - 1 - (widthBits W - 1 - i) = i by omega]
  · have hhigh : v.getLsbD i = false :=
      Nat.testBit_lt_two_pow (h.trans_le (Nat.pow_le_pow_right (by decide) (Nat.le_of_not_lt hi)))
    simp [hi, hhigh]

end Sys2Proof.Machine

namespace Sys2Proof.Proofs

open Sys2Proof.Machine

/-- Settles O18: each reversal mirrors every bit, so a wider one reverses the halves and swaps them. -/
theorem reflectionsReverseBitOrder : Obligations.ReflectionsReverseBitOrder := by
  unfold Obligations.ReflectionsReverseBitOrder
  refine ⟨fun x i hi => ?_, fun x i hi => ?_, fun x i hi => ?_, reverse_eq_reverse_halves (n := 8),
    reverse_eq_reverse_halves (n := 16)⟩
  · rw [reflectByte_getLsbD, decide_eq_true hi, Bool.true_and]
  · rw [reflectHalfword_getLsbD, decide_eq_true hi, Bool.true_and]
  · rw [reflectWord_getLsbD, decide_eq_true hi, Bool.true_and]

/-- Settles O20: a granularity at least the value's width reverses it whole, a narrower one each chunk in place. -/
theorem inputReflectionTable : Obligations.InputReflectionTable := by
  unfold Obligations.InputReflectionTable
  refine ⟨fun d => ⟨rfl, ?_, ?_, ?_⟩, fun d => ⟨rfl, reverseChunks_two (n := 8) d, ?_, ?_⟩,
    fun d => ⟨rfl, reflectIn_byByte_word d, reverseChunks_two (n := 16) d, ?_⟩, fun m => ?corners⟩
  case corners => cases m <;> decide +kernel
  all_goals exact reflectIn_of_le_granularity d rfl (by decide) (by decide)

/-- Settles O21: the bits at each width, and R73's own equation for W = 7. -/
theorem outputReflectionBitByBit : Obligations.OutputReflectionBitByBit := by
  unfold Obligations.OutputReflectionBitByBit
  intro v i
  refine ⟨reflectOut_getLsbD .w8 v i, reflectOut_getLsbD .w16 v i, reflectOut_getLsbD .w32 v i,
    reflectOut_getLsbD .w7 v i, ?_⟩
  rw [reflectOut, BitVec.setWidth_eq_extractLsb' (by decide : 8 ≤ 32)]

/-- Settles O22: the involution below 2^W, and two bytes with bit 7 set, which W = 7 loses. -/
theorem outputReflectionTwice : Obligations.OutputReflectionTwice := by
  unfold Obligations.OutputReflectionTwice
  refine ⟨by decide, fun _ h => ?_, fun _ h => ?_, fun _ h => ?_, fun v => ?_⟩
  · exact reflectOut_reflectOut h
  · exact reflectOut_reflectOut h
  · exact reflectOut_reflectOut h
  · exact reflectOut_reflectOut v.isLt

/-- Settles O19: the mirror of the mirrored bit is the bit. -/
theorem reflectionsAreInvolutions : Obligations.ReflectionsAreInvolutions := by
  unfold Obligations.ReflectionsAreInvolutions
  exact ⟨fun _ => BitVec.reverse_reverse_eq, fun _ => BitVec.reverse_reverse_eq, fun _ => BitVec.reverse_reverse_eq⟩

end Sys2Proof.Proofs
end

section
/-! SUPPORT. Proof of the statement of 41_polynomial_config.md: every transaction on a clocked block completes (O34). -/

namespace Sys2Proof.Machine

/-! ### Which transactions are not refused (R105, R117) -/

/-- A `CR` write that is not refused is neither marked nor reported (R105). -/
theorem State.writeControl_refusal_of_not_changesWidth {v : Word} {s : State}
    (hw : s.changesWidthWithoutReset v = false) :
    (s.writeControl v).refused = s.refused ∧ (s.writeControl v).reports = s.reports := by
  obtain ⟨hc, -⟩ | ⟨-, -, h⟩ | ⟨-, -, h⟩ := writeControl_cases v s
  · exact absurd hc (Bool.eq_false_iff.1 hw)
  · simp [h]
  · simp [h]

/-- A transaction that is no width change without `RESET` is neither refused nor reported (R114, R117). -/
theorem effectOf_refusal_of_not_changesWidth {i : Instr} {s : State}
    (hw : ∀ v, i = .wr32Cr v → s.changesWidthWithoutReset v = false) :
    (effectOf i s).refused = s.refused ∧ (effectOf i s).reports = s.reports := by
  obtain hkept | ⟨v, rfl, -⟩ := effectOf_refusal_cases i s
  · exact hkept
  · exact State.writeControl_refusal_of_not_changesWidth (hw v rfl)

end Sys2Proof.Machine

namespace Sys2Proof.Proofs

open Sys2Proof.Machine

/-- Settles O34: past the clock check every transaction is its effect, and only the `CR` write has a refusal among its
cases (a next state too: log entry 3). -/
theorem everyTransactionCompletes : Obligations.EveryTransactionCompletes := by
  unfold Obligations.EveryTransactionCompletes
  intro i s h
  refine ⟨effectOf i s, exec_of_clocked i h, effectOf_faulted i s, fun hwidth => ?_⟩
  refine effectOf_refusal_of_not_changesWidth fun v hi => changesWidthWithoutReset_eq_false_iff.2 ?_
  cases hr : v.getLsbD 0 with
  | true => exact .inl rfl
  | false => exact .inr (hwidth v hi hr)

end Sys2Proof.Proofs
end

section
/-! SUPPORT. Proofs of the statements of 42_crc_computation.md: the update (O23, O25), the hardware against the
reference (O48, O50), width splitting (O51), and the result as a polynomial remainder (O52). -/

namespace Sys2Proof.Machine

/-! ### The update digests the bits of its value, most significant first (R88, R89) -/

/-- The loop of R88 is a fold of the bit step over the bits, most significant first. -/
theorem digestBits_eq_foldl {k : Nat} (W : WidthClass) (P : Word) (d : BitVec k) (n : Nat) (c : Word) :
    digestBits W P d n c = (bitsMsbFirst d n).foldl (bitStep W P) c := by
  induction n generalizing c with
  | zero => rfl
  | succ n ih => rw [digestBits_succ, ih, bitsMsbFirst, List.foldl_cons]

theorem update_eq_foldl {k : Nat} (c : Word) (W : WidthClass) (P : Word) (d : BitVec k) :
    update c W P d = (bitsMsbFirst d k).foldl (bitStep W P) (c &&& mask W) :=
  digestBits_eq_foldl W P d k (c &&& mask W)

theorem foldl_bitStep_and_mask {W : WidthClass} {P c : Word} (hc : c &&& mask W = c) (bits : List Bool) :
    bits.foldl (bitStep W P) c &&& mask W = bits.foldl (bitStep W P) c := by
  induction bits generalizing c with
  | nil => exact hc
  | cons b bits ih => exact ih (bitStep_and_mask W P c b)

/-- The update masks the accumulator it starts from. -/
theorem update_masked {k : Nat} (c : Word) (W : WidthClass) (P : Word) (d : BitVec k) :
    update (c &&& mask W) W P d = update c W P d :=
  update_congr (startValue_and_mask W c) rfl d

/-- The bits from position n up, which are those of a chunk that begins there, and then the bits below n. -/
theorem bitsMsbFirst_add {k w m : Nat} (d : BitVec k) (n : Nat) (hm : m ≤ w) :
    bitsMsbFirst d (n + m) = bitsMsbFirst (d.extractLsb' n w) m ++ bitsMsbFirst d n := by
  induction m with
  | zero => rfl
  | succ m ih =>
    have hbit : (d.extractLsb' n w).getLsbD m = d.getLsbD (n + m) := by
      rw [BitVec.getLsbD_extractLsb', decide_eq_true (Nat.lt_of_succ_le hm), Bool.true_and]
    rw [← Nat.add_assoc, bitsMsbFirst, bitsMsbFirst, ih (by omega), hbit, List.cons_append]

/-- The bits of the bytes of a value are its bits. -/
theorem flatMap_bytesMsbFirst {k : Nat} (d : BitVec k) (n : Nat) :
    (bytesMsbFirst d n).flatMap (bitsMsbFirst · 8) = bitsMsbFirst d (8 * n) := by
  induction n with
  | zero => rfl
  | succ n ih => rw [bytesMsbFirst, List.flatMap_cons, ih, Nat.mul_succ, bitsMsbFirst_add d (8 * n) (Nat.le_refl 8)]

theorem digestBytes_eq_foldl {W : WidthClass} {P c : Word} (hc : c &&& mask W = c) (bytes : List Byte) :
    digestBytes W P c bytes = (bytes.flatMap (bitsMsbFirst · 8)).foldl (bitStep W P) c := by
  induction bytes generalizing c with
  | nil => rfl
  | cons b bytes ih =>
    have hb : update c W P b = (bitsMsbFirst b 8).foldl (bitStep W P) c := by rw [update_eq_foldl, hc]
    calc digestBytes W P c (b :: bytes)
      _ = digestBytes W P (update c W P b) bytes := rfl
      _ = _ := by rw [ih (update_and_mask c W P b), List.flatMap_cons, List.foldl_append, hb]

theorem digestBytes_and_mask {W : WidthClass} {P c : Word} (hc : c &&& mask W = c) (bytes : List Byte) :
    digestBytes W P c bytes &&& mask W = digestBytes W P c bytes := by
  rw [digestBytes_eq_foldl hc, foldl_bitStep_and_mask hc]

/-- R89 for a value of any number of bytes, from any accumulator. -/
theorem update_eq_digestBytes {n : Nat} (c : Word) (W : WidthClass) (P : Word) (d : BitVec (8 * (n + 1))) :
    update c W P d = digestBytes W P c (bytesMsbFirst d (n + 1)) := by
  have hc : (c &&& mask W) &&& mask W = c &&& mask W := startValue_and_mask W c
  calc update c W P d
    _ = digestBytes W P (c &&& mask W) (bytesMsbFirst d (n + 1)) := by
      rw [update_eq_foldl, digestBytes_eq_foldl hc, flatMap_bytesMsbFirst]
    _ = digestBytes W P c (bytesMsbFirst d (n + 1)) := by
      simp only [bytesMsbFirst, digestBytes, List.foldl_cons, update_masked]

/-! ### The update is linear (R86) -/

/-- Adding the coefficient on the sum of two feedbacks adds it on each. -/
theorem ite_xor_eq_xor_ite {w : Nat} (x y : Bool) (p : BitVec w) :
    (if x ^^ y then p else 0#w) = (if x then p else 0#w) ^^^ (if y then p else 0#w) := by
  cases x <;> cases y <;> simp

theorem xor_and_mask (W : WidthClass) (c c' : Word) :
    (c ^^^ c') &&& mask W = (c &&& mask W) ^^^ (c' &&& mask W) := by
  refine BitVec.eq_of_getLsbD_eq fun i _ => ?_
  simp only [BitVec.getLsbD_and, BitVec.getLsbD_xor, Bool.and_xor_distrib_right]

theorem bitStep_xor (W : WidthClass) (P c c' : Word) (b b' : Bool) :
    bitStep W P (c ^^^ c') (b ^^ b') = bitStep W P c b ^^^ bitStep W P c' b' := by
  have hfeedback : ((c ^^^ c').getLsbD (widthBits W - 1) ^^ (b ^^ b')) =
      ((c.getLsbD (widthBits W - 1) ^^ b) ^^ (c'.getLsbD (widthBits W - 1) ^^ b')) := by
    simp only [BitVec.getLsbD_xor, Bool.xor_assoc, Bool.xor_left_comm]
  rw [bitStep, bitStep, bitStep, hfeedback, ite_xor_eq_xor_ite, BitVec.shiftLeft_xor_distrib, xor_and_mask]
  ac_rfl

theorem digestBits_xor {k : Nat} (W : WidthClass) (P : Word) (d d' : BitVec k) (n : Nat) (c c' : Word) :
    digestBits W P (d ^^^ d') n (c ^^^ c') = digestBits W P d n c ^^^ digestBits W P d' n c' := by
  induction n generalizing c c' with
  | zero => rfl
  | succ n ih => rw [digestBits_succ, digestBits_succ, digestBits_succ, BitVec.getLsbD_xor, bitStep_xor, ih]

/-! ### The reference digests one list of bytes (R93) -/

/-- The accumulator the reference ends with: the bytes of all Steps digested in order from the start value. -/
def digestSteps (config : CrcConfig) (steps : List DataStep) : Word :=
  digestBytes (polynomialWidth config.polynomial) (polynomialValue config.polynomial)
    (startValue (polynomialWidth config.polynomial) config.initialValue)
    (steps.flatMap (stepBytes config.inputReflection))

theorem digestBytes_flatMap (W : WidthClass) (P c : Word) (mode : InputReflection) (steps : List DataStep) :
    digestBytes W P c (steps.flatMap (stepBytes mode)) =
      steps.foldl (fun c x => digestBytes W P c (stepBytes mode x)) c :=
  List.foldl_flatMap

theorem digestSteps_and_mask (config : CrcConfig) (steps : List DataStep) :
    digestSteps config steps &&& mask (polynomialWidth config.polynomial) = digestSteps config steps :=
  digestBytes_and_mask (startValue_and_mask _ _) _

/-- The reference's result is the result view of its accumulator (R91). -/
theorem swCrc_eq_resultView (config : CrcConfig) (steps : List DataStep) :
    swCrc config steps =
      resultView (polynomialWidth config.polynomial) config.outputReflect (digestSteps config steps) := by
  rw [resultView, digestSteps_and_mask, digestSteps, digestBytes_flatMap]
  rfl

/-! ### Runs of transactions on a clocked block -/

/-- The effects of transactions, one after another. -/
def effects (is : List Instr) (s : State) : State := is.foldl (fun s i => effectOf i s) s

theorem effects_append (is js : List Instr) (s : State) : effects (is ++ js) s = effects js (effects is s) :=
  List.foldl_append

theorem execAll_of_clocked (is : List Instr) {s : State} (h : s.clocked = true) :
    execAll is s = .next (effects is s) := by
  induction is generalizing s with
  | nil => rfl
  | cons i is ih =>
    rw [execAll_cons_of_next (exec_of_clocked i h), ih (by rw [effectOf_clocked, h])]
    rfl

theorem State.writeControl_with_pending (v : Word) (s : State) (rs : List BusRequest) :
    State.writeControl v { s with pending := rs } = { s.writeControl v with pending := rs } := by
  have hwidth : State.changesWidthWithoutReset v { s with pending := rs } = s.changesWidthWithoutReset v := rfl
  rw [State.writeControl, State.writeControl, hwidth]
  split_ifs <;> rfl

/-- No transaction looks at the requests behind it. -/
theorem effectOf_with_pending (i : Instr) (s : State) (rs : List BusRequest) :
    effectOf i { s with pending := rs } = { effectOf i s with pending := rs } := by
  cases i with
  | wr32Cr v => exact State.writeControl_with_pending v s rs
  | wr8Dr | wr16Dr | wr32Dr | rd32Dr | rd32Cr | rd32Init | rd32Pol | wr32Init | wr32Pol => rfl

theorem effects_with_pending (is : List Instr) (s : State) (rs : List BusRequest) :
    effects is { s with pending := rs } = { effects is s with pending := rs } := by
  induction is generalizing s with
  | nil => rfl
  | cons i is ih =>
    calc effects (i :: is) { s with pending := rs }
      _ = effects is { effectOf i s with pending := rs } := congrArg (effects is) (effectOf_with_pending i s rs)
      _ = _ := ih (effectOf i s)

/-- A step answers the encoding of a transaction with the transaction's effect. -/
theorem step_of_encoded {i : Instr} {s : State} {rs : List BusRequest} (hc : s.clocked = true) (hq : s.platform = [])
    (hp : s.pending = encode i :: rs) : step s = .next { effectOf i s with pending := rs } := by
  have hd : decodeRequest (encode i) = .ok i := Proofs.decodeOfEncodeIsTheTransaction i (by cases i <;> rfl)
  rw [step_of_no_platform hp hq, answer_of_decodeRequest_ok hd, exec_of_clocked i (s := { s with pending := rs }) hc,
    effectOf_with_pending]

/-- A program at the head of the queue is answered in as many steps as it has transactions. -/
theorem runSteps_of_encoded {is : List Instr} {s : State} {rest : List BusRequest} (hc : s.clocked = true)
    (hq : s.platform = []) (hp : s.pending = is.map encode ++ rest) :
    runSteps is.length s = .next { effects is s with pending := rest } := by
  induction is generalizing s with
  | nil =>
    obtain rfl : s.pending = rest := hp
    rfl
  | cons i is ih =>
    rw [List.length_cons, runSteps_succ_of_next (step_of_encoded hc hq hp),
      ih (by rw [effectOf_clocked, hc]) (by rw [effectOf_platform, hq]) rfl, effects_with_pending]
    rfl

/-! ### The adapter sequence (R60, R112) -/

/-- A Step's data-port write digests its bytes, whatever the width of the port (R89, R93). -/
theorem effectOf_feedOp (x : DataStep) (s : State) :
    effectOf (feedOp x) s = { s with crc := digestBytes s.width s.pol s.crc (stepBytes s.inputMode x) } := by
  cases x with
  | data8 x => rw [stepBytes, ← update_eq_digestBytes (n := 0)]; rfl
  | data16 x => rw [stepBytes, ← update_eq_digestBytes (n := 1)]; rfl
  | data32 x => rw [stepBytes, ← update_eq_digestBytes (n := 3)]; rfl

theorem effects_feedOps (steps : List DataStep) (s : State) :
    effects (steps.map feedOp) s =
      { s with crc := digestBytes s.width s.pol s.crc (steps.flatMap (stepBytes s.inputMode)) } := by
  rw [digestBytes_flatMap]
  induction steps generalizing s with
  | nil => rfl
  | cons x steps ih =>
    calc effects ((x :: steps).map feedOp) s
      _ = effects (steps.map feedOp) (effectOf (feedOp x) s) := rfl
      _ = _ := by rw [effectOf_feedOp, ih]; rfl

/-- The block programmed with a configuration, its accumulator at a value. -/
def State.programmed (config : CrcConfig) (crc : Word) (s : State) : State :=
  { s with
    cr := ⟨codeOfWidth (polynomialWidth config.polynomial), codeOfMode config.inputReflection,
      BitVec.ofBool config.outputReflect⟩
    init := config.initialValue
    pol := polynomialValue config.polynomial
    crc := crc }

@[simp] theorem State.programmed_width (config : CrcConfig) (crc : Word) (s : State) :
    (s.programmed config crc).width = polynomialWidth config.polynomial := widthOfCode_codeOfWidth _

@[simp] theorem State.programmed_inputMode (config : CrcConfig) (crc : Word) (s : State) :
    (s.programmed config crc).inputMode = config.inputReflection := modeOfCode_codeOfMode _

@[simp] theorem State.programmed_outputReflect (config : CrcConfig) (crc : Word) (s : State) :
    (s.programmed config crc).outputReflect = config.outputReflect := ofBool_beq_one _

theorem controlValue_or_one (config : CrcConfig) : controlValue config ||| 1#32 = controlValue config := by
  rw [controlValue, BitVec.or_assoc, BitVec.or_self]

theorem effects_beginOps (config : CrcConfig) (s : State) :
    effects (beginOps config.initialValue (polynomialValue config.polynomial) (controlValue config)) s =
      s.programmed config (startValue (polynomialWidth config.polynomial) config.initialValue) := by
  rw [beginOps, controlValue_or_one]
  exact State.writeControl_controlValue config _

/-- What the adapter sequence does: the configuration stands in the registers, the reference's accumulator in `crc`, and
the reference's result has been read (R96). -/
theorem effects_adapterSequence (config : CrcConfig) (steps : List DataStep) (s : State) :
    effects (adapterSequence config steps) s =
      (s.programmed config (digestSteps config steps)).observe (swCrc config steps) := by
  have hfeed : effects (steps.map feedOp)
      (s.programmed config (startValue (polynomialWidth config.polynomial) config.initialValue)) =
      s.programmed config (digestSteps config steps) := by
    rw [effects_feedOps, State.programmed_width, State.programmed_inputMode]
    rfl
  have hresult : (s.programmed config (digestSteps config steps)).result = swCrc config steps := by
    rw [State.result, State.programmed_width, State.programmed_outputReflect, swCrc_eq_resultView]
    rfl
  rw [adapterSequence, effects_append, effects_append, effects_beginOps, hfeed, ← hresult]
  rfl

theorem execAll_adapterSequence (config : CrcConfig) (steps : List DataStep) {s : State} (h : s.clocked = true) :
    ∃ t, execAll (adapterSequence config steps) s = .next t ∧ t.reads = s.reads ++ [swCrc config steps] :=
  ⟨_, execAll_of_clocked _ h, by rw [effects_adapterSequence]; rfl⟩

theorem adapterSequence_length (config : CrcConfig) (steps : List DataStep) :
    (adapterSequence config steps).length = steps.length + 4 := by
  simp [adapterSequence, beginOps]

/-! ### Splitting a value into chunks -/

theorem extractLsb'_extractLsb' {k a w i v : Nat} (d : BitVec k) (h : i + v ≤ w) :
    (d.extractLsb' a w).extractLsb' i v = d.extractLsb' (a + i) v := by
  refine BitVec.eq_of_getLsbD_eq fun l hl => ?_
  rw [BitVec.getLsbD_extractLsb', BitVec.getLsbD_extractLsb', BitVec.getLsbD_extractLsb',
    decide_eq_true (show i + l < w by omega), Bool.true_and, Nat.add_assoc]

/-- The bytes from byte n up, which are those of a chunk that begins there, and then the bytes below n. -/
theorem bytesMsbFirst_add {k w m : Nat} (d : BitVec k) (n : Nat) (hm : 8 * m ≤ w) :
    bytesMsbFirst d (n + m) = bytesMsbFirst (d.extractLsb' (8 * n) w) m ++ bytesMsbFirst d n := by
  induction m with
  | zero => rfl
  | succ m ih =>
    have hbyte : (d.extractLsb' (8 * n) w).extractLsb' (8 * m) 8 = d.extractLsb' (8 * (n + m)) 8 := by
      rw [extractLsb'_extractLsb' d (by omega), Nat.mul_add]
    rw [← Nat.add_assoc, bytesMsbFirst, bytesMsbFirst, ih (by omega), hbyte, List.cons_append]

/-- Reversing chunks in place goes on inside an aligned group of a chunks as it does in that group alone. -/
theorem reverseChunks_extractLsb'_group {k g n a j : Nat} (d : BitVec k) (hg : 0 < g) (hn : g * n ≤ k)
    (hgroup : a * (j + 1) ≤ n) :
    (reverseChunks g d n).extractLsb' (g * a * j) (g * a) = reverseChunks g (d.extractLsb' (g * a * j) (g * a)) a := by
  refine BitVec.eq_of_getLsbD_eq fun i hi => ?_
  have hin : g * a * j + i < g * n := calc
    g * a * j + i < g * a * j + g * a := Nat.add_lt_add_left hi _
    _ = g * (a * (j + 1)) := by rw [← Nat.mul_assoc, Nat.mul_succ]
    _ ≤ g * n := Nat.mul_le_mul_left g hgroup
  have hmirror : g * (i / g) + (g - 1 - i % g) < g * a := calc
    g * (i / g) + (g - 1 - i % g) < g * (i / g) + g := by omega
    _ = g * (i / g + 1) := (Nat.mul_succ g _).symm
    _ ≤ g * a := Nat.mul_le_mul_left g (Nat.div_lt_of_lt_mul hi)
  have hdiv : (g * a * j + i) / g = a * j + i / g := by rw [Nat.mul_assoc, Nat.mul_add_div hg]
  have hmod : (g * a * j + i) % g = i % g := by rw [Nat.mul_assoc, Nat.mul_add_mod]
  rw [BitVec.getLsbD_extractLsb', reverseChunks_getLsbD g d n hn, reverseChunks_getLsbD g _ a le_rfl,
    BitVec.getLsbD_extractLsb', hdiv, hmod, decide_eq_true hin, decide_eq_true hmirror, Bool.true_and, Bool.true_and,
    Nat.mul_add, ← Nat.mul_assoc, Nat.add_assoc]

/-- A chunk of whole granules is reflected the same inside the wider value and alone (R70). -/
theorem reflectIn_extractLsb' {k w j : Nat} {mode : InputReflection} (d : BitVec k) (hw : 0 < w)
    (hk : w * (j + 1) ≤ k) (hgran : ∀ g, granularity mode = some g → g ∣ w) :
    (reflectIn mode d).extractLsb' (w * j) w = reflectIn mode (d.extractLsb' (w * j) w) := by
  rcases hmode : granularity mode with _ | g
  case none => simp only [reflectIn, hmode]
  case some =>
    obtain ⟨a, rfl⟩ := hgran g hmode
    have hg : 0 < g := Nat.pos_of_mul_pos_right hw
    have hgw : g ≤ g * a := Nat.le_of_dvd hw (Nat.dvd_mul_right g a)
    have hgk : g ≤ k := hgw.trans ((Nat.le_mul_of_pos_right _ (Nat.succ_pos j)).trans hk)
    have hgroup : a * (j + 1) ≤ k / g :=
      (Nat.le_div_iff_mul_le hg).2 (by rwa [Nat.mul_comm, ← Nat.mul_assoc])
    simp only [reflectIn, hmode, Nat.min_eq_left hgw, Nat.min_eq_left hgk, Nat.mul_div_cancel_left a hg]
    exact reverseChunks_extractLsb'_group d hg (Nat.mul_div_le k g) hgroup

/-- A value of two halves, each of whole bytes and whole granules, is serialised half by half (R97). -/
theorem bytesMsbFirst_reflectIn_halves {n : Nat} {mode : InputReflection} (d : BitVec (8 * (n + n))) (hn : 0 < n)
    (hgran : ∀ g, granularity mode = some g → g ∣ 8 * n) :
    bytesMsbFirst (reflectIn mode d) (n + n) =
      bytesMsbFirst (reflectIn mode (d.extractLsb' (8 * n) (8 * n))) n ++
        bytesMsbFirst (reflectIn mode (d.extractLsb' 0 (8 * n))) n := by
  have hhigh : (reflectIn mode d).extractLsb' (8 * n) (8 * n) = reflectIn mode (d.extractLsb' (8 * n) (8 * n)) := by
    have h := reflectIn_extractLsb' (j := 1) d (by omega) (by omega) hgran
    rwa [Nat.mul_one] at h
  have hlow : bytesMsbFirst (reflectIn mode d) n = bytesMsbFirst (reflectIn mode (d.extractLsb' 0 (8 * n))) n := by
    have h := reflectIn_extractLsb' (j := 0) d (by omega) (by omega) hgran
    have hbytes := bytesMsbFirst_add (w := 8 * n) (m := n) (reflectIn mode d) 0 le_rfl
    rw [Nat.zero_add, bytesMsbFirst, List.append_nil] at hbytes
    rw [hbytes]
    exact congrArg (bytesMsbFirst · n) h
  rw [bytesMsbFirst_add _ n le_rfl, hhigh, hlow]

theorem stepBytes_data32_eq_halfwords {mode : InputReflection} (h : ∀ g, granularity mode = some g → g ∣ 16)
    (d : Word) :
    stepBytes mode (.data32 d) = stepBytes mode (.data16 (d.extractLsb' 16 16)) ++
      stepBytes mode (.data16 (d.extractLsb' 0 16)) :=
  bytesMsbFirst_reflectIn_halves (n := 2) d (by decide) h

theorem stepBytes_data16_eq_bytes {mode : InputReflection} (h : ∀ g, granularity mode = some g → g ∣ 8)
    (d : Halfword) :
    stepBytes mode (.data16 d) = stepBytes mode (.data8 (d.extractLsb' 8 8)) ++
      stepBytes mode (.data8 (d.extractLsb' 0 8)) :=
  bytesMsbFirst_reflectIn_halves (n := 1) d (by decide) h

theorem stepBytes_data32_eq_bytes {mode : InputReflection} (h : ∀ g, granularity mode = some g → g ∣ 8) (d : Word) :
    stepBytes mode (.data32 d) = [DataStep.data8 (d.extractLsb' 24 8), .data8 (d.extractLsb' 16 8),
      .data8 (d.extractLsb' 8 8), .data8 (d.extractLsb' 0 8)].flatMap (stepBytes mode) := by
  rw [stepBytes_data32_eq_halfwords fun g hg => (h g hg).trans (by decide), stepBytes_data16_eq_bytes h,
    stepBytes_data16_eq_bytes h]
  simp only [extractLsb'_extractLsb' d (show 8 + 8 ≤ 16 by decide),
    extractLsb'_extractLsb' d (show 0 + 8 ≤ 16 by decide)]
  rfl

/-- The reference sees the bytes of all Steps and nothing of where one Step ends. -/
theorem swCrc_congr {config : CrcConfig} {steps steps' : List DataStep}
    (h : steps.flatMap (stepBytes config.inputReflection) = steps'.flatMap (stepBytes config.inputReflection)) :
    swCrc config steps = swCrc config steps' := by
  rw [swCrc_eq_resultView, swCrc_eq_resultView, digestSteps, digestSteps, h]

theorem swCrc_word_eq_halfwords {config : CrcConfig} (h : ∀ g, granularity config.inputReflection = some g → g ∣ 16)
    (d : Word) :
    swCrc config [.data32 d] = swCrc config [.data16 (d.extractLsb' 16 16), .data16 (d.extractLsb' 0 16)] :=
  swCrc_congr (by simp [stepBytes_data32_eq_halfwords h])

theorem swCrc_word_eq_bytes {config : CrcConfig} (h : ∀ g, granularity config.inputReflection = some g → g ∣ 8)
    (d : Word) :
    swCrc config [.data32 d] = swCrc config [.data8 (d.extractLsb' 24 8), .data8 (d.extractLsb' 16 8),
      .data8 (d.extractLsb' 8 8), .data8 (d.extractLsb' 0 8)] :=
  swCrc_congr (by rw [List.flatMap_singleton, stepBytes_data32_eq_bytes h])

/-! ### Bits as a polynomial over GF(2) (R98) -/

/-- A bit as a coefficient. -/
def bitVal (b : Bool) : ZMod 2 := if b then 1 else 0

@[simp] theorem bitVal_false : bitVal false = 0 := rfl

theorem bitVal_xor (a b : Bool) : bitVal (a ^^ b) = bitVal a + bitVal b := by decide +revert

theorem bitVal_and (a b : Bool) : bitVal (a && b) = bitVal a * bitVal b := by decide +revert

/-- The polynomial of a list of bits, the coefficient of the highest power first (R98). -/
noncomputable def bitsPoly (bits : List Bool) : Polynomial (ZMod 2) :=
  bits.foldl (fun p b => p * Polynomial.X + if b then 1 else 0) 0

theorem bitsPoly_append_singleton (bits : List Bool) (b : Bool) :
    bitsPoly (bits ++ [b]) = bitsPoly bits * Polynomial.X + Polynomial.C (bitVal b) := by
  have hb : (if b then 1 else 0 : Polynomial (ZMod 2)) = Polynomial.C (bitVal b) := by cases b <;> simp [bitVal]
  rw [bitsPoly, List.foldl_append, List.foldl_cons, List.foldl_nil, hb, ← bitsPoly]

theorem bitsPoly_cons (b : Bool) (bits : List Bool) :
    bitsPoly (b :: bits) = Polynomial.C (bitVal b) * Polynomial.X ^ bits.length + bitsPoly bits := by
  induction bits using List.reverseRecOn with
  | nil => simpa [bitsPoly] using bitsPoly_append_singleton [] b
  | append_singleton bits b' ih =>
    rw [← List.cons_append, bitsPoly_append_singleton, ih, bitsPoly_append_singleton, List.length_append,
      List.length_singleton]
    ring

theorem bitsMsbFirst_length {k : Nat} (d : BitVec k) (n : Nat) : (bitsMsbFirst d n).length = n := by
  induction n with
  | zero => rfl
  | succ n ih => rw [bitsMsbFirst, List.length_cons, ih]

/-- Bit i of a value is the coefficient of x^i. -/
theorem coeff_bitsPoly_bitsMsbFirst {k : Nat} (d : BitVec k) (n i : Nat) :
    (bitsPoly (bitsMsbFirst d n)).coeff i = bitVal (decide (i < n) && d.getLsbD i) := by
  induction n with
  | zero => simp [bitsMsbFirst, bitsPoly]
  | succ n ih =>
    rw [bitsMsbFirst, bitsPoly_cons, bitsMsbFirst_length, Polynomial.coeff_add, Polynomial.coeff_C_mul_X_pow, ih]
    obtain hi | rfl | hi : i < n ∨ i = n ∨ n < i := by omega
    · simp [hi, hi.ne, show i < n + 1 by omega]
    · simp
    · simp [hi.ne', show ¬ i < n by omega, show ¬ i < n + 1 by omega]

theorem degree_bitsPoly_bitsMsbFirst_lt {k : Nat} (d : BitVec k) (n : Nat) :
    (bitsPoly (bitsMsbFirst d n)).degree < n := by
  refine (Polynomial.degree_lt_iff_coeff_zero _ n).2 fun i hi => ?_
  rw [coeff_bitsPoly_bitsMsbFirst, decide_eq_false (Nat.not_lt.2 hi), Bool.false_and, bitVal_false]

/-- Above the width a masked value has no coefficient. -/
theorem bitsPoly_and_mask (W : WidthClass) (c : Word) :
    bitsPoly (bitsMsbFirst (c &&& mask W) 32) = bitsPoly (bitsMsbFirst c (widthBits W)) := by
  ext i
  have hle := widthBits_le W
  rw [coeff_bitsPoly_bitsMsbFirst, coeff_bitsPoly_bitsMsbFirst, BitVec.getLsbD_and, mask_getLsbD]
  by_cases hi : i < widthBits W
  · simp [hi, show i < 32 by omega]
  · simp [hi]

/-! ### The bit step as arithmetic modulo the generator (R86, R98) -/

/-- The generator `x^W + P(x)` (R76, R98). -/
noncomputable def generator (W : WidthClass) (P : Word) : Polynomial (ZMod 2) :=
  Polynomial.X ^ widthBits W + bitsPoly (bitsMsbFirst P (widthBits W))

theorem generator_monic (W : WidthClass) (P : Word) : (generator W P).Monic :=
  Polynomial.monic_X_pow_add (degree_bitsPoly_bitsMsbFirst_lt P _)

theorem degree_generator (W : WidthClass) (P : Word) : (generator W P).degree = widthBits W := by
  have hlow := degree_bitsPoly_bitsMsbFirst_lt P (widthBits W)
  rw [generator, Polynomial.degree_add_eq_left_of_degree_lt (by rwa [Polynomial.degree_X_pow]), Polynomial.degree_X_pow]

theorem coeff_generator (W : WidthClass) (P : Word) (i : Nat) :
    (generator W P).coeff i = bitVal (decide (i = widthBits W) ^^ (decide (i < widthBits W) && P.getLsbD i)) := by
  rw [generator, Polynomial.coeff_add, Polynomial.coeff_X_pow, coeff_bitsPoly_bitsMsbFirst, bitVal_xor]
  simp [bitVal]

theorem coeff_mul_X_bitsPoly (c : Word) (i : Nat) :
    (bitsPoly (bitsMsbFirst c 32) * Polynomial.X).coeff i =
      bitVal (decide (0 < i) && (decide (i - 1 < 32) && c.getLsbD (i - 1))) := by
  cases i with
  | zero => simp
  | succ i => simp [Polynomial.coeff_mul_X, coeff_bitsPoly_bitsMsbFirst]

/-- A bit step multiplies by x, adds the bit at x^W, and takes away the generator on feedback. -/
theorem bitsPoly_bitStep {W : WidthClass} {c : Word} (hc : c &&& mask W = c) (P : Word) (b : Bool) :
    bitsPoly (bitsMsbFirst (bitStep W P c b) 32) +
        generator W P * Polynomial.C (bitVal (c.getLsbD (widthBits W - 1) ^^ b)) =
      bitsPoly (bitsMsbFirst c 32) * Polynomial.X + Polynomial.C (bitVal b) * Polynomial.X ^ widthBits W := by
  ext i
  have hle := widthBits_le W
  have hpos := widthBits_pos W
  have hX : (if i = widthBits W then bitVal b else 0) = bitVal (b && decide (i = widthBits W)) := by
    by_cases h : i = widthBits W <;> simp [h]
  rw [Polynomial.coeff_add, Polynomial.coeff_add, Polynomial.coeff_mul_C, coeff_generator, coeff_bitsPoly_bitsMsbFirst,
    coeff_mul_X_bitsPoly, Polynomial.coeff_C_mul_X_pow, hX, ← bitVal_and, ← bitVal_xor, ← bitVal_xor]
  congr 1
  -- Below W the coefficient's bit cancels, at W the leaving bit does, and above W nothing stands.
  obtain hi | rfl | hi : i < widthBits W ∨ i = widthBits W ∨ widthBits W < i := by omega
  · rw [bitStep_getLsbD W P c b i (by omega)]
    simp [hi, hi.ne, show i < 32 by omega, show i - 1 < 32 by omega, Bool.and_comm]
  · have hout : (bitStep W P c b).getLsbD (widthBits W) = false :=
      getLsbD_of_and_mask (bitStep_and_mask W P c b) le_rfl
    simp [hout, hpos, show widthBits W - 1 < 32 by omega]
  · have hout : (bitStep W P c b).getLsbD i = false := getLsbD_of_and_mask (bitStep_and_mask W P c b) hi.le
    have hc' : c.getLsbD (i - 1) = false := getLsbD_of_and_mask hc (by omega)
    simp [hout, hc', hi.ne', show ¬ i < widthBits W by omega]

/-- Digesting bits: the accumulator and the message together, reduced modulo the generator. -/
theorem bitsPoly_foldl_bitStep {W : WidthClass} {c : Word} (hc : c &&& mask W = c) (P : Word) (bits : List Bool) :
    ∃ q, bitsPoly (bitsMsbFirst (bits.foldl (bitStep W P) c) 32) + generator W P * q =
      bitsPoly (bitsMsbFirst c 32) * Polynomial.X ^ bits.length + bitsPoly bits * Polynomial.X ^ widthBits W := by
  induction bits using List.reverseRecOn with
  | nil => exact ⟨0, by simp [bitsPoly]⟩
  | append_singleton bits b ih =>
    obtain ⟨q, hq⟩ := ih
    have hstep := bitsPoly_bitStep (foldl_bitStep_and_mask (P := P) hc bits) P b
    refine ⟨q * Polynomial.X +
      Polynomial.C (bitVal ((bits.foldl (bitStep W P) c).getLsbD (widthBits W - 1) ^^ b)), ?_⟩
    rw [List.foldl_append, List.foldl_cons, List.foldl_nil, bitsPoly_append_singleton, List.length_append,
      List.length_singleton]
    linear_combination hstep + Polynomial.X * hq

/-- Digesting bits gives the remainder modulo the generator. -/
theorem bitsPoly_foldl_bitStep_eq_modByMonic {W : WidthClass} {c : Word} (hc : c &&& mask W = c) (P : Word)
    (bits : List Bool) :
    bitsPoly (bitsMsbFirst (bits.foldl (bitStep W P) c) 32) =
      (bitsPoly (bitsMsbFirst c 32) * Polynomial.X ^ bits.length +
        bitsPoly bits * Polynomial.X ^ widthBits W).modByMonic (generator W P) := by
  obtain ⟨q, hq⟩ := bitsPoly_foldl_bitStep hc P bits
  have hdegree : (bitsPoly (bitsMsbFirst (bits.foldl (bitStep W P) c) 32)).degree < (generator W P).degree := by
    rw [degree_generator, ← foldl_bitStep_and_mask hc, bitsPoly_and_mask]
    exact degree_bitsPoly_bitsMsbFirst_lt _ _
  exact (Polynomial.div_modByMonic_unique q _ (generator_monic W P) ⟨hq, hdegree⟩).2.symm

/-! ### The result without reflection -/

theorem flatMap_stepBytes_none (x : DataStep) : (stepBytes .none x).flatMap (bitsMsbFirst · 8) = stepBits x := by
  cases x with
  | data8 x => exact flatMap_bytesMsbFirst x 1
  | data16 x => exact flatMap_bytesMsbFirst x 2
  | data32 x => exact flatMap_bytesMsbFirst x 4

/-- With no reflection the result is the accumulator that has digested the message's bits. -/
theorem swCrc_of_no_reflection {config : CrcConfig} (hmode : config.inputReflection = .none)
    (hout : config.outputReflect = false) (steps : List DataStep) :
    swCrc config steps = (messageBits steps).foldl
      (bitStep (polynomialWidth config.polynomial) (polynomialValue config.polynomial))
      (startValue (polynomialWidth config.polynomial) config.initialValue) := by
  have hbits : (steps.flatMap (stepBytes .none)).flatMap (bitsMsbFirst · 8) = messageBits steps := by
    simp only [List.flatMap_assoc, flatMap_stepBytes_none, messageBits]
  rw [swCrc_eq_resultView, hout, resultView, if_neg Bool.false_ne_true, digestSteps_and_mask, digestSteps, hmode,
    digestBytes_eq_foldl (startValue_and_mask _ _), hbits]

end Sys2Proof.Machine

namespace Sys2Proof.Proofs

open Sys2Proof.Machine

/-- Settles O23: the bits of the bytes, in the order they are digested, are the bits of the wide value. -/
theorem updateIsByteSerial : Obligations.UpdateIsByteSerial := by
  unfold Obligations.UpdateIsByteSerial
  intro W c P
  exact ⟨fun d => update_eq_digestBytes (n := 1) c W P d, fun d => update_eq_digestBytes (n := 3) c W P d⟩

/-- Settles O25: each bit step is linear in the accumulator and the input bit together. -/
theorem updateIsLinear : Obligations.UpdateIsLinear := by
  unfold Obligations.UpdateIsLinear
  intro W P c c' k d d'
  rw [update, xor_and_mask, digestBits_xor]
  rfl

/-- Settles O48: each step answers one encoded transaction, and each data-port write digests the bytes the reference
digests. -/
theorem hardwareResultEqualsReference : Obligations.HardwareResultEqualsReference := by
  unfold Obligations.HardwareResultEqualsReference
  intro config steps rest s hc hq hp
  have hrun := runSteps_of_encoded hc hq hp
  rw [adapterSequence_length, effects_adapterSequence] at hrun
  exact ⟨_, hrun, rfl, rfl, rfl, rfl, rfl⟩

/-- Settles O50: with no Steps both keep the start value. -/
theorem emptyCalculationReturnsTheInitialValue : Obligations.EmptyCalculationReturnsTheInitialValue := by
  unfold Obligations.EmptyCalculationReturnsTheInitialValue
  rintro config s W rfl hc
  exact ⟨rfl, execAll_adapterSequence config [] hc⟩

/-- Settles O51: the reference sees only the bytes of all Steps in a row, and a granularity that divides the narrower
width reflects them alike; the calculations that tell the widths apart are CRC-32's, evaluated. -/
theorem widthSplitting : Obligations.WidthSplitting := by
  unfold Obligations.WidthSplitting
  refine ⟨fun config d => ⟨fun hmode => ?narrow, fun hmode => ?halfword⟩,
    ⟨⟨.byHalfword, false, 0xFFFFFFFF#32, .poly32 0x04C11DB7#32⟩, rfl, by decide +kernel⟩,
    ⟨⟨.byWord, false, 0xFFFFFFFF#32, .poly32 0x04C11DB7#32⟩, rfl, by decide +kernel⟩⟩
  case narrow =>
    have h8 : ∀ g, granularity config.inputReflection = some g → g ∣ 8 := by
      obtain hmode | hmode := hmode <;> simp [hmode, granularity]
    exact ⟨swCrc_word_eq_halfwords (fun g hg => (h8 g hg).trans (by decide)) d, swCrc_word_eq_bytes h8 d⟩
  case halfword => exact swCrc_word_eq_halfwords (by simp [hmode, granularity]) d

/-- Settles O52: every bit step multiplies by x, adds the bit at x^W and takes away the generator on feedback, and
what is left has a degree below W. -/
theorem resultIsThePolynomialRemainder : Obligations.ResultIsThePolynomialRemainder := by
  unfold Obligations.ResultIsThePolynomialRemainder
  intro config steps s hc hmode hout W poly G M
  obtain ⟨t, hrun, hread⟩ := execAll_adapterSequence config steps hc
  refine ⟨t, swCrc config steps, hrun, hread, ?_⟩
  have hremainder := bitsPoly_foldl_bitStep_eq_modByMonic
    (startValue_and_mask (polynomialWidth config.polynomial) config.initialValue) (polynomialValue config.polynomial)
    (messageBits steps)
  rw [← swCrc_of_no_reflection hmode hout, startValue, bitsPoly_and_mask] at hremainder
  exact hremainder

end Sys2Proof.Proofs
end

section
/-! SUPPORT. Proofs of the statements of 43_register_access.md: the data ports and the result (O26, O27), the control
register (O28, O29), `INIT` and `POL` (O31 to O33), a configuration changed between data writes (O40), and the adapter
sequence from any state (O49). -/

namespace Sys2Proof.Machine

/-! ### The result view (R91) -/

/-- A result has zeros from bit W up, reflected or not (R91). -/
theorem resultView_getLsbD_of_le {W : WidthClass} (revOut : Bool) (crc : Word) {i : Nat} (hi : widthBits W ≤ i) :
    (resultView W revOut crc).getLsbD i = false := by
  cases revOut with
  | false => exact getLsbD_of_and_mask (startValue_and_mask W crc) hi
  | true =>
    have hout : (resultView W true crc).getLsbD i =
        (decide (i < widthBits W) && (crc &&& mask W).getLsbD (widthBits W - 1 - i)) := reflectOut_getLsbD W _ i
    rw [hout, decide_eq_false (Nat.not_lt.2 hi), Bool.false_and]

/-! ### The control register (R105, R106, R117) -/

/-- The value a read returns carries the stored fields where a write takes them from (R48, R106). -/
theorem crOperandFields_value (c : ControlReg) : crOperandFields c.value = c := by
  obtain ⟨polySize, revIn, revOut⟩ := c
  decide +revert

/-- Outside bits 7:3 the value a read returns is zero (R49, R54, R106). -/
theorem value_and_fields (c : ControlReg) : c.value &&& 0xF8#32 = c.value := by
  rw [← value_crOperandFields, crOperandFields_value]

theorem State.writeControl_of_same_width {v : Word} {s : State} (hr : v.getLsbD 0 = false)
    (hw : v.extractLsb' 3 2 = s.cr.polySize) : s.writeControl v = s.storeControl v := by
  have hkeeps : s.changesWidthWithoutReset v = false := changesWidthWithoutReset_eq_false_iff.2 (.inr hw)
  have hreset : crOperandReset v = false := hr
  simp [State.writeControl, hkeeps, hreset]

theorem State.writeControl_of_width_change {v : Word} {s : State} (hr : v.getLsbD 0 = false)
    (hw : v.extractLsb' 3 2 ≠ s.cr.polySize) :
    s.writeControl v = { s with refused := true, reports := s.reports ++ [.widthChangeWithoutReset] } := by
  have hchanges : s.changesWidthWithoutReset v = true := by
    rw [← Bool.not_eq_false, changesWidthWithoutReset_eq_false_iff, hr]
    exact not_or.2 ⟨Bool.false_ne_true, hw⟩
  simp [State.writeControl, hchanges, State.report, Report.isFault, Report.isRefusal]

/-- A one-bit field of a written value as a flag, such as `REV_OUT` (R53). -/
theorem extractLsb'_one_beq_one (v : Word) (i : Nat) : (v.extractLsb' i 1 == 1#1) = v.getLsbD i := by
  have hbit : v.extractLsb' i 1 = BitVec.ofBool (v.getLsbD i) := by
    refine BitVec.eq_of_getLsbD_eq fun j hj => ?_
    obtain rfl : j = 0 := by omega
    simp
  rw [hbit, ofBool_beq_one]

/-! ### What `INIT` and `POL` act on (R107, R109) -/

/-- A `CR` write without `RESET` does the same whatever `INIT` holds (R107). -/
theorem State.writeControl_with_init {u : Word} (hr : crOperandReset u = false) (s : State) (v : Word) :
    State.writeControl u { s with init := v } = { s.writeControl u with init := v } := by
  have hwidth : State.changesWidthWithoutReset u { s with init := v } = s.changesWidthWithoutReset u := rfl
  rw [State.writeControl, State.writeControl, hwidth, hr, if_neg Bool.false_ne_true, if_neg Bool.false_ne_true]
  split_ifs <;> rfl

/-- Only a read of `INIT`, a write of it and a `CR` write with `RESET` = 1 look at `INIT` or set it (R107). -/
theorem effectOf_with_init {i : Instr} (hread : i ≠ .rd32Init) (hwrite : ∀ u, i ≠ .wr32Init u)
    (hreset : ∀ u, i = .wr32Cr u → crOperandReset u = false) (s : State) (v : Word) :
    effectOf i { s with init := v } = { effectOf i s with init := v } := by
  cases i with
  | rd32Init => exact absurd rfl hread
  | wr32Init u => exact absurd rfl (hwrite u)
  | wr32Cr u => exact State.writeControl_with_init (hreset u rfl) s v
  | wr8Dr | wr16Dr | wr32Dr | rd32Dr | rd32Cr | rd32Pol | wr32Pol => rfl

/-- A data-port value is digested with the low W bits of the coefficient alone (R78, R109). -/
theorem State.feed_with_masked_pol {k : Nat} (x : BitVec k) (s : State) (v : Word) :
    State.feed x { s with pol := v &&& mask s.width } =
      { State.feed x { s with pol := v } with pol := v &&& mask s.width } := by
  have hlow : update s.crc s.width (v &&& mask s.width) (reflectIn s.inputMode x) =
      update s.crc s.width v (reflectIn s.inputMode x) := update_congr rfl (startValue_and_mask s.width v) _
  exact congrArg (fun crc => ({ s with pol := v &&& mask s.width, crc := crc } : State)) hlow

end Sys2Proof.Machine

namespace Sys2Proof.Proofs

open Sys2Proof.Machine

/-- Settles O32: only the load at `RESET` reads `INIT`, and it takes the bits below the width being selected. -/
theorem initWriteActsOnlyAtReset : Obligations.InitWriteActsOnlyAtReset := by
  unfold Obligations.InitWriteActsOnlyAtReset
  intro s v hc
  refine ⟨answerFollowsTheDescriptorTable 0x1810#13 v s hc, exec_of_clocked _ hc, fun u hu => ?load,
    fun i hread hwrite hreset => ?unused⟩
  case load =>
    refine ⟨_, execAll_of_clocked _ hc, ?_⟩
    have hload : effects [.wr32Init v, .wr32Cr u] s = ((s.writeInit v).storeControl u).loadStart :=
      State.writeControl_of_reset hu (s.writeInit v)
    rw [hload]
    rfl
  case unused =>
    refine ⟨effectOf i s, exec_of_clocked i hc, ?_⟩
    rw [exec_of_clocked i (s := { s with init := v }) hc, effectOf_with_init hread hwrite hreset]

/-- Settles O33: only a `POL` write changes `POL`, and the update takes the coefficient's low W bits alone. -/
theorem polWriteActsOnLaterDataWrites : Obligations.PolWriteActsOnLaterDataWrites := by
  unfold Obligations.PolWriteActsOnLaterDataWrites
  intro s v hc
  refine ⟨answerFollowsTheDescriptorTable 0x1814#13 v s hc, answerFollowsTheDescriptorTable 0x0814#13 v s hc,
    exec_of_clocked _ hc, exec_of_clocked _ hc, execAll_of_clocked _ hc, fun i t hi h => ?kept, fun x => ?used⟩
  case kept =>
    obtain ⟨-, rfl⟩ := exec_eq_next_iff.1 h
    exact (effectOf_pol_cases i s).resolve_right fun ⟨u, hu⟩ => hi u hu
  case used =>
    refine ⟨_, exec_of_clocked (feedOp x) (s := { s with pol := v }) hc, ?value, ?low⟩
    case value => cases x <;> rfl
    case low =>
      rw [exec_of_clocked (feedOp x) (s := { s with pol := v &&& mask s.width }) hc]
      cases x <;> exact congrArg Host.Outcome.next (State.feed_with_masked_pol _ s v)

/-- Settles O40: each write leaves the accumulator and changes the register that the next use looks up. -/
theorem configurationChangeActsAtTheNextUse : Obligations.ConfigurationChangeActsAtTheNextUse := by
  unfold Obligations.ConfigurationChangeActsAtTheNextUse
  intro s v x hc
  refine ⟨fun hr hw => ?control, ⟨_, execAll_of_clocked _ hc, rfl⟩, ⟨_, execAll_of_clocked _ hc, rfl⟩⟩
  have hstore : effects [.wr32Cr v, .wr8Dr x, .rd32Dr] s =
      ((s.storeControl v).feed x).observe ((s.storeControl v).feed x).result := by
    rw [← State.writeControl_of_same_width hr hw]
    rfl
  have hwidth : (s.storeControl v).width = widthOfCode s.cr.polySize := congrArg widthOfCode hw
  have hflag : (s.storeControl v).outputReflect = v.getLsbD 7 := extractLsb'_one_beq_one v 7
  refine ⟨_, execAll_of_clocked _ hc, ?_, ?_⟩ <;> rw [hstore]
  · rw [State.observe_crc, State.feed_crc, hwidth]
    rfl
  · rw [State.observe_reads, State.observe_crc, State.result, State.feed_width, State.feed_outputReflect, hwidth, hflag]
    rfl

/-- Settles O49: the sequence programs every register it uses, so it reads the reference's result from any state. -/
theorem adapterResultIgnoresTheStateBefore : Obligations.AdapterResultIgnoresTheStateBefore := by
  unfold Obligations.AdapterResultIgnoresTheStateBefore
  intro config steps s s' hc hc'
  refine ⟨_, _, swCrc config steps, execAll_of_clocked _ hc, execAll_of_clocked _ hc', ?_⟩
  rw [effects_adapterSequence, effects_adapterSequence]
  exact ⟨rfl, rfl, rfl, rfl, rfl⟩

/-- Settles O26: past the clock check a data-port write is `feed`. -/
theorem dataPortWritesDigestTheValue : Obligations.DataPortWritesDigestTheValue := by
  unfold Obligations.DataPortWritesDigestTheValue
  intro s hc
  exact ⟨fun w => ⟨answer_byteWrite w s, answer_halfwordWrite w s, answerFollowsTheDescriptorTable 0x1800#13 w s hc⟩,
    fun x => exec_of_clocked (.wr8Dr x) hc, fun x => exec_of_clocked (.wr16Dr x) hc,
    fun x => exec_of_clocked (.wr32Dr x) hc⟩

/-- Settles O27: the value read is the result view at the stored flag. -/
theorem resultReadReturnsTheAccumulatorView : Obligations.ResultReadReturnsTheAccumulatorView := by
  unfold Obligations.ResultReadReturnsTheAccumulatorView
  intro s hc
  refine ⟨s.result, fun w => answerFollowsTheDescriptorTable 0x0800#13 w s hc, exec_of_clocked _ hc, fun hoff => ?off,
    fun hon => ?on, fun i hi => resultView_getLsbD_of_le _ _ hi⟩
  case off =>
    have hflag : s.outputReflect = false := by rw [State.outputReflect, hoff]; rfl
    rw [State.result, hflag]
    rfl
  case on =>
    have hflag : s.outputReflect = true := by rw [State.outputReflect, hon]; rfl
    rw [State.result, hflag]
    rfl

/-- Settles O28: the three ways a `CR` write can go; the refused one answers a next state (log entry 3). -/
theorem controlWriteStoresAndLoads : Obligations.ControlWriteStoresAndLoads := by
  unfold Obligations.ControlWriteStoresAndLoads
  intro s v hc
  rw [exec_of_clocked _ hc, effectOf]
  refine ⟨fun hr => ?load, fun hr hw => ?store, fun hr hw => ?refuse⟩
  case load =>
    rw [State.writeControl_of_reset hr]
    rfl
  case store =>
    rw [State.writeControl_of_same_width hr hw]
    rfl
  case refuse => rw [State.writeControl_of_width_change hr hw]

/-- Settles O29: the fields come back from the value read, and outside bits 7:3 it is zero. -/
theorem controlReadReturnsTheFields : Obligations.ControlReadReturnsTheFields := by
  unfold Obligations.ControlReadReturnsTheFields
  refine ⟨exec_of_clocked _ rfl, fun s hc => ?_⟩
  have hfields : crOperandFields s.cr.value = s.cr := crOperandFields_value s.cr
  refine ⟨s.cr.value, fun w => answerFollowsTheDescriptorTable 0x0808#13 w s hc, exec_of_clocked _ hc,
    congrArg ControlReg.revOut hfields, congrArg ControlReg.revIn hfields, congrArg ControlReg.polySize hfields,
    ?low, ?high⟩
  case low | high =>
    rw [← value_and_fields, BitVec.extractLsb'_and]
    exact BitVec.and_zero

/-- Settles O31: `INIT` is stored and read whole, with no look at the width. -/
theorem initReadReturnsTheLastWrittenValue : Obligations.InitReadReturnsTheLastWrittenValue := by
  unfold Obligations.InitReadReturnsTheLastWrittenValue
  intro s v hc
  exact ⟨answerFollowsTheDescriptorTable 0x0810#13 v s hc, exec_of_clocked _ hc, execAll_of_clocked _ hc⟩

end Sys2Proof.Proofs
end

section
/-! SUPPORT. Proofs of the statements of 60_exceptions.md: the block that is not clocked (O12), which outcome goes before
which (O13), and the clock off and on again (O15). -/

namespace Sys2Proof.Machine

/-! ### A block that is not clocked (R118) -/

theorem exec_of_not_clocked (i : Instr) {s : State} (h : s.clocked = false) : exec i s = .fault .stuckNotClocked := by
  rw [exec_eq_whenClocked, whenClocked_of_not_clocked h]

/-- The clock check goes before decoding: a request that is no transaction is stuck too (R100, R119). -/
theorem answer_of_not_clocked (r : BusRequest) {s : State} (h : s.clocked = false) :
    answer r s = .fault .stuckNotClocked := by
  rcases hd : decodeRequest r with e | i
  · rw [answer, hd]
    exact whenClocked_of_not_clocked h _
  · rw [answer_of_decodeRequest_ok hd, exec_of_not_clocked i h]

/-! ### What a bus fault reports (R115) -/

theorem faultReport_isFault (r : BusRequest) : (faultReport r).isFault = true := by
  cases r <;> rfl

@[simp] theorem State.takeBusFault_reports (r : BusRequest) (s : State) :
    (s.takeBusFault r).reports = s.reports ++ [faultReport r] := rfl

/-! ### The step in which a platform input lands -/

/-- The platform's next input lands if it is due or the bus master cannot move. -/
theorem step_of_platform_due {s : State} {e : PlatformEvent} {es : List PlatformEvent} (hq : s.platform = e :: es)
    (hdue : s.pending = [] ∨ e.after = 0 ∨ s.clocked = false) :
    step s = .next (({ s with platform := es } : State).land e.what) := by
  rcases hp : s.pending with _ | ⟨r, rs⟩
  · simp only [step, State.nextMove, hp, hq]
  · have hmove : (e.after = 0 || !s.clocked) = true := by simpa [hp] using hdue
    simp only [step, State.nextMove, hp, hq, hmove, if_true]

end Sys2Proof.Machine

namespace Sys2Proof.Proofs

open Sys2Proof.Machine

/-- Settles O12: every meaning and the bus fault stand behind the clock check, and with no platform input left a step is
the answer to the first request (log entry 4). -/
theorem unclockedTransactionIsStuck : Obligations.UnclockedTransactionIsStuck := by
  unfold Obligations.UnclockedTransactionIsStuck
  intro s h
  refine ⟨fun i => exec_of_not_clocked i h, fun r => answer_of_not_clocked r h, fun r rs hp hq => ?_⟩
  rw [step_of_no_platform hp hq]
  exact answer_of_not_clocked r h

/-- Settles O13: past the clock check a request that does not decode takes the bus fault, and one that does is its
transaction, which is refused or completes. -/
theorem outcomePriority : Obligations.OutcomePriority := by
  unfold Obligations.OutcomePriority
  intro r s
  refine ⟨answer_of_not_clocked r, fun hc => ?_⟩
  rcases hd : decodeRequest r with e | i
  · refine ⟨s.takeBusFault r, answer_of_decodeRequest_error hd hc, fun _ => ?fault, nofun, nofun⟩
    exact ⟨⟨faultReport r, faultReport_isFault r, State.takeBusFault_reports r s⟩, State.takeBusFault_faulted r s,
      State.takeBusFault_refused r s⟩
  · obtain ⟨t, hexec, hfaulted, hkept⟩ := everyTransactionCompletes i s hc
    refine ⟨t, (answer_of_decodeRequest_ok hd s).trans hexec, nofun, fun v hv hr hw => ?refusal, fun j hj hwidth => ?done⟩
    case refusal =>
      obtain rfl : i = .wr32Cr v := Except.ok.inj hv
      have ht : t = s.writeControl v := (exec_eq_next_iff.1 hexec).2
      rw [ht, State.writeControl_of_width_change hr hw]
      exact ⟨rfl, rfl, rfl⟩
    case done =>
      obtain rfl : i = j := Except.ok.inj hj
      obtain ⟨hrefused, hreports⟩ := hkept hwidth
      exact ⟨hreports, hfaulted, hrefused⟩

/-- Settles O15: the clock off is due at once, and the clock on lands next, after however many requests it was to wait
for, since none is answered in between. -/
theorem clockLossKeepsTheRegisters : Obligations.ClockLossKeepsTheRegisters := by
  unfold Obligations.ClockLossKeepsTheRegisters
  intro s n es hc hq
  have hoff : step s = .next { s with clocked := false, platform := ⟨n, .clock true⟩ :: es } :=
    step_of_platform_due hq (.inr (.inl rfl))
  have hon : step { s with clocked := false, platform := ⟨n, .clock true⟩ :: es } =
      .next { s with clocked := true, platform := es } :=
    step_of_platform_due (e := ⟨n, .clock true⟩) rfl (.inr (.inr rfl))
  refine ⟨?_, ?_⟩
  · rw [runSteps_succ_of_next hoff, runSteps_zero]
  · rw [runSteps_succ_of_next hoff, runSteps_succ_of_next hon, runSteps_zero, ← hc]

end Sys2Proof.Proofs
end

section
/-! SUPPORT. Proofs of the statements of 70_reset_and_hazards.md: the wait (O14), the system reset (O16, O17), and the
order of the `INIT` and `POL` writes (O39). -/

namespace Sys2Proof.Machine

/-- The branch of `step` in which neither the platform nor the bus master has a move (R132). -/
theorem step_of_idle {s : State} (hp : s.pending = []) (hq : s.platform = []) : step s = .next s := by
  simp only [step, State.nextMove, hp, hq]

/-- The state at the start of a run is one that a system reset leaves as it is (R25, R130). -/
theorem State.systemReset_reset : State.reset.systemReset = State.reset := rfl

/-- Neither write looks at the field the other stores. -/
theorem State.writePol_writeInit_comm (a b : Word) (s : State) :
    (s.writeInit a).writePol b = (s.writePol b).writeInit a := rfl

/-- The two writes may change places before any transactions, not only before a `CR` write. -/
theorem effects_wr32Init_wr32Pol_comm (a b : Word) (is : List Instr) (s : State) :
    effects (.wr32Init a :: .wr32Pol b :: is) s = effects (.wr32Pol b :: .wr32Init a :: is) s :=
  congrArg (effects is) (State.writePol_writeInit_comm a b s)

end Sys2Proof.Machine

namespace Sys2Proof.Proofs

open Sys2Proof.Machine

/-- Settles O14: with both queues empty the next move is the wait. -/
theorem blockWaitsForTransactions : Obligations.BlockWaitsForTransactions := by
  unfold Obligations.BlockWaitsForTransactions
  exact fun _ hp hq => step_of_idle hp hq

/-- Settles O16: the values after a system reset are those of a run's start too, since a system reset keeps that state. -/
theorem systemResetSetsEveryRegister : Obligations.SystemResetSetsEveryRegister := by
  unfold Obligations.SystemResetSetsEveryRegister
  have hregs (s : State) : s.systemReset.cr = ⟨0b00#2, 0b00#2, 0b0#1⟩ ∧ s.systemReset.init = 0xFFFFFFFF#32 ∧
      s.systemReset.pol = 0x04C11DB7#32 ∧ s.systemReset.crc = 0xFFFFFFFF#32 :=
    ⟨s.systemReset_cr, s.systemReset_init, s.systemReset_pol, s.systemReset_crc⟩
  have hstart := hregs State.reset
  rw [State.systemReset_reset] at hstart
  obtain ⟨hcr, hinit, hpol, hcrc⟩ := hstart
  exact ⟨⟨hcr, hinit, hpol, hcrc, rfl, rfl⟩, hregs⟩

/-- Settles O17: a due platform input lands, and this one's landing is `systemReset`, which names the four registers
alone. -/
theorem systemResetLandsBetweenTransactions : Obligations.SystemResetLandsBetweenTransactions := by
  unfold Obligations.SystemResetLandsBetweenTransactions
  intro s es hq
  exact step_of_platform_due hq (.inr (.inl rfl))

/-- Settles O39: the two writes reach one state in either order, so the `CR` write after them starts from that state. -/
theorem initAndPolWritesCommute : Obligations.InitAndPolWritesCommute := by
  unfold Obligations.InitAndPolWritesCommute
  intro s a b v hc
  refine ⟨effects [.wr32Init a, .wr32Pol b, .wr32Cr v] s, execAll_of_clocked _ hc, ?_⟩
  rw [effects_wr32Init_wr32Pol_comm]
  exact execAll_of_clocked _ hc

end Sys2Proof.Proofs
end
